-- ==== Sys2Proof/Word.lean ====
section
/-! DEFINITION. The words of the block: bytes, register identifiers and pixel intensities (00_scope R10). -/

namespace Sys2Proof

/-- u8 (00_scope R10). -/
abbrev Byte := BitVec 8

/-- A 16-bit register identifier: page or global marker in bits 15:8, offset in bits 7:0 (30_encoding R64). -/
abbrev RegId := BitVec 16

/-- A pixel's 32-bit intensity (42_serializer R130). -/
abbrev Intensity := BitVec 32

end Sys2Proof
end

