-- ==== Sys2Proof/Config.lean ====
section
/-! DEFINITION. The implementation parameters of 00_scope R8 as plain data, the one parameter set of the spec (the test set
TP of 95_test_vectors section 1), and the free value of the slave oracle (00_scope R13). -/

namespace Sys2Proof

/-- `PWM_SCHEME` of 00_scope R8: the two byte layouts of 42_serializer R134 and R135. -/
inductive PwmScheme where
  | fourByte
  | clampReplicate
  deriving DecidableEq, Repr

/-- The implementation parameters (00_scope R8). The three functions of a native position `(cx, cy)` are tables with
`CW*CH` entries, entry `cy*CW + cx` for `(cx, cy)` (log 5). The derived parameters NX, NY, NCHIPS and PWM_LEN are functions
of these (Machine/Operands.lean). -/
structure Params where
  /-- `W`: logical grid width in pixels. -/
  width : Nat
  /-- `H`: logical grid height in pixels. -/
  height : Nat
  /-- `CW`: chip native width. -/
  chipWidth : Nat
  /-- `CH`: chip native height. -/
  chipHeight : Nat
  /-- `BUS_CHIP_COUNT`: the number of page-cache entries. -/
  busChipCount : Nat
  /-- `CHIP_CS[i]`: chip-select bits of chip i. -/
  chipCs : List Byte
  /-- `DELAY_CYCLES`: read by no rule (70_reset_and_hazards R195). -/
  delayCycles : Nat
  /-- `GLOBAL`: the global marker. -/
  globalMarker : Byte
  /-- `UNLOCK_REG`. -/
  unlockReg : RegId
  /-- `UNLOCK_MAGIC`. -/
  unlockMagic : Byte
  /-- `PAGESEL_REG`. -/
  pageselReg : RegId
  /-- `CONFIG_REG`. -/
  configReg : RegId
  /-- `GCC_REG`. -/
  gccReg : RegId
  /-- `PWM_REG_START`. -/
  pwmRegStart : RegId
  /-- `ONOFF_REG_START`. -/
  onoffRegStart : RegId
  /-- `SYNC_MASTER_CODE`. -/
  syncMasterCode : BitVec 2
  /-- `SYNC_SLAVE_CODE`. -/
  syncSlaveCode : BitVec 2
  /-- `RUN_VALUE`. -/
  runValue : BitVec 1
  /-- `PWM_SCHEME`. -/
  pwmScheme : PwmScheme
  /-- `PWM_BASE(cx,cy)`. -/
  pwmBase : List Nat
  /-- `PWM_STRIDE`. -/
  pwmStride : Nat
  /-- `ONOFF_LEN`. -/
  onoffLen : Nat
  /-- `ONOFF_BYTE(cx,cy)`. -/
  onoffByte : List Nat
  /-- `ONOFF_PAIR(cx,cy)`. -/
  onoffPair : List Nat
  /-- `ONOFF_ROW_STRIDE`. -/
  onoffRowStride : Nat
  deriving DecidableEq, Repr

/-- `WRITE_BIT` of 00_scope R8, value 0 (30_encoding R63, decision D10; log 19). -/
def Config.writeBit : Byte := 0

/-- The slave oracle's draws as a free value (00_scope R13: "Each s is a free draw under no law"): draw number `n` of a run,
where the environment's list of coming draws does not give it (log 3). It has no body, so no proof can know a draw. -/
opaque Config.slaveDraw : Nat → Bool

/-- The test parameter set TP of 95_test_vectors section 1 for a geometry `W, H, CW, CH` (decision D47: never normative). -/
def Params.tp (w h cw ch : Nat) : Params where
  width := w
  height := h
  chipWidth := cw
  chipHeight := ch
  busChipCount := 4
  chipCs := [0x00#8, 0x05#8, 0x0A#8, 0x0F#8]
  delayCycles := 0
  globalMarker := 0xFF#8
  unlockReg := 0xFFFE#16
  unlockMagic := 0xC5#8
  pageselReg := 0xFFFD#16
  configReg := 0x0300#16
  gccReg := 0x0301#16
  pwmRegStart := 0x0100#16
  onoffRegStart := 0x0000#16
  syncMasterCode := 0b01#2
  syncSlaveCode := 0b10#2
  runValue := 1#1
  pwmScheme := .fourByte
  pwmBase := List.range (cw * ch)
  pwmStride := cw * ch
  onoffLen := 2 * ch * ((cw + 3) / 4)
  onoffByte := (List.range (cw * ch)).map fun n => 2 * (n / cw) * ((cw + 3) / 4) + (n % cw) / 4
  onoffPair := (List.range (cw * ch)).map fun n => (n % cw) % 4
  onoffRowStride := (cw + 3) / 4

/-- The parameter set of `State.reset` and of `decodeTableWord`: TP with the geometry G4 of 95_test_vectors section 1
(W = 16, H = 2, CW = 4, CH = 2). DESIGN CHOICE (log 1): the spec leaves every value OPEN, and no statement of the model
rests on this set: each is about every parameter set. -/
def Config.buildParams : Params := Params.tp 16 2 4 2

end Sys2Proof
end

