-- ==== Sys2Proof/Syntax.lean ====
section
/-! DEFINITION. The commands of the block (30_encoding R79, R80), the pixels of a Display (42_serializer R130) and the
names of the refusals (60_exceptions R157). -/

namespace Sys2Proof

/-- A pixel (42_serializer R130). -/
structure Pixel where
  intensity : Intensity
  gate : Bool
  shorted : Bool
  isOpen : Bool
  deriving DecidableEq, Repr

/-- A Display: its pixels in the column-major linear order `n = x*H + y` (20_memory R47). -/
abbrev Display := List Pixel

/-- The host commands, one constructor per row of opcode_table.json, with the operands of 30_encoding R80. The length
operand of WRITE_SEQ is the length of its data. -/
inductive Instr where
  | start
  | stop
  | tx (byte : Byte)
  | rx (sendAck : Bool)
  | selectPage (addr page : Byte)
  | writeReg (addr : Byte) (reg : RegId) (value : Byte)
  | writeSeq (addr : Byte) (startReg : RegId) (data : List Byte)
  | driverInit
  | displayInit (gain : Byte)
  | render (display : Display)
  deriving DecidableEq, Repr

/-- The refusal reasons of 60_exceptions R157, in the order of its checks. BAD_PARAMETERS (R158) is no command's: it is
the constructor `badParameters` of Machine.Refusal. -/
inductive RefusalReason where
  | illegalOpcode
  | truncated
  | badAckOperand
  | oddAddress
  | unconfiguredAddress
  | globalPage
  | reservedPixelFlags
  deriving DecidableEq, Repr

end Sys2Proof
end

