-- ==== Sys2Proof/Machine/Operands.lean ====
section
/-! DEFINITION. What the operands and parameters stand for: register fields, chip addresses, cache keys, the config byte,
the derived geometry, chip regions, the constraints on a parameter set (00_scope R9) and the operand checks of
60_exceptions R157. -/

namespace Sys2Proof

/-- `hi(r)`: the page, or the global marker (30_encoding R64). -/
def regPage (r : RegId) : Byte := r.extractLsb' 8 8

/-- `lo(r)`: the in-page offset, the byte sent on the wire (30_encoding R64). -/
def regOffset (r : RegId) : Byte := r.extractLsb' 0 8

/-- `ceil(a/b) = (a + b - 1) div b` (00_scope R10). -/
def ceilDiv (a b : Nat) : Nat := (a + b - 1) / b

namespace Params

/-- `NX = ceil(W/CW)` (00_scope R8). -/
def nx (p : Params) : Nat := ceilDiv p.width p.chipWidth

/-- `NY = ceil(H/CH)` (00_scope R8). -/
def ny (p : Params) : Nat := ceilDiv p.height p.chipHeight

/-- `NCHIPS = NX*NY` (00_scope R8). -/
def nchips (p : Params) : Nat := p.nx * p.ny

/-- `PWM_LEN = 4*CW*CH` (00_scope R8). -/
def pwmLen (p : Params) : Nat := 4 * p.chipWidth * p.chipHeight

/-- `W*H`, the number of pixels of a Display (20_memory R47). -/
def pixelCount (p : Params) : Nat := p.width * p.height

/-- A register is global when its high byte is the global marker (20_memory R42). -/
def isGlobal (p : Params) (r : RegId) : Bool := regPage r == p.globalMarker

/-- `ADDR8(i) = ((0x50 | CHIP_CS[i]) << 1) & 0xFF` (30_encoding R62). -/
def addr8 (p : Params) (i : Nat) : Byte := (0x50#8 ||| p.chipCs.getD i 0#8) <<< 1

/-- The configured addresses (30_encoding R62). -/
def configured (p : Params) (addr : Byte) : Bool := (List.range p.nchips).any fun i => p.addr8 i == addr

/-- `KEY(addr) = (addr >> 1) mod BUS_CHIP_COUNT` (41_chip_driver R111). -/
def key (p : Params) (addr : Byte) : Nat := (addr >>> 1).toNat % p.busChipCount

/-- `CFG(i) = (ROLE(i) << 6) | RUN_VALUE`, chip 0 the sync master and every other chip a slave (30_encoding R68). -/
def cfgByte (p : Params) (i : Nat) : Byte :=
  ((if i = 0 then p.syncMasterCode else p.syncSlaveCode).setWidth 8 <<< 6) ||| p.runValue.setWidth 8

/-- The table index of the native position `(cx, cy)` (log 5). -/
def nativeIndex (p : Params) (cx cy : Nat) : Nat := cy * p.chipWidth + cx

/-- The PWM slot `PWM_BASE(cx,cy) + k*PWM_STRIDE` (42_serializer R134). -/
def pwmSlot (p : Params) (cx cy k : Nat) : Nat := p.pwmBase.getD (p.nativeIndex cx cy) 0 + k * p.pwmStride

/-- `ONOFF_BYTE(cx,cy)` (00_scope R8). -/
def onoffAt (p : Params) (cx cy : Nat) : Nat := p.onoffByte.getD (p.nativeIndex cx cy) 0

/-- `ONOFF_PAIR(cx,cy)` (00_scope R8). -/
def onoffPairAt (p : Params) (cx cy : Nat) : Nat := p.onoffPair.getD (p.nativeIndex cx cy) 0

/-! ## Chip regions (42_serializer R131) -/

/-- `first_col(i) = tx*CW` with `tx = i mod NX`. -/
def firstCol (p : Params) (i : Nat) : Nat := (i % p.nx) * p.chipWidth

/-- `last_col(i) = min(first_col(i) + CW, W) - 1`. -/
def lastCol (p : Params) (i : Nat) : Nat := min (p.firstCol i + p.chipWidth) p.width - 1

/-- `first_row(i) = ty*CH` with `ty = i div NX`. -/
def firstRow (p : Params) (i : Nat) : Nat := (i / p.nx) * p.chipHeight

/-- `last_row(i) = min(first_row(i) + CH, H) - 1`. -/
def lastRow (p : Params) (i : Nat) : Nat := min (p.firstRow i + p.chipHeight) p.height - 1

/-- Pixel `(x, y)` lies in the region of chip `i`. -/
abbrev inRegion (p : Params) (i x y : Nat) : Prop :=
  p.firstCol i ≤ x ∧ x ≤ p.lastCol i ∧ p.firstRow i ≤ y ∧ y ≤ p.lastRow i

/-- The native positions `(cx, cy)` of chip `i` that its clipped region covers (42_serializer R133). -/
def covered (p : Params) (i : Nat) : List (Nat × Nat) :=
  (List.range (p.lastCol i + 1 - p.firstCol i)).flatMap fun cx =>
    (List.range (p.lastRow i + 1 - p.firstRow i)).map fun cy => (cx, cy)

/-- The pixel `D(x, y)` at native position `(cx, cy)` of chip `i`, element `x*H + y` of the Display (20_memory R47,
42_serializer R133). -/
def pixelAt (p : Params) (d : Display) (i cx cy : Nat) : Option Pixel :=
  d[(p.firstCol i + cx) * p.height + (p.firstRow i + cy)]?

/-! ## Well-formed parameter sets (00_scope R9, with the types of R8) -/

/-- Every native position of a chip. -/
def nativePositions (p : Params) : List (Nat × Nat) :=
  (List.range p.chipWidth).flatMap fun cx => (List.range p.chipHeight).map fun cy => (cx, cy)

/-- The `4*CW*CH` PWM slots of 00_scope R9 item 5. -/
def pwmSlots (p : Params) : List Nat :=
  p.nativePositions.flatMap fun c => [0, 1, 2, 3].map fun k => p.pwmSlot c.1 c.2 k

/-- The types of 00_scope R8 that the data type does not carry (log 7). -/
abbrev TypesOk (p : Params) : Prop :=
  1 ≤ p.width ∧ 1 ≤ p.height ∧ 1 ≤ p.chipWidth ∧ 1 ≤ p.chipHeight ∧
  1 ≤ p.pwmStride ∧ 1 ≤ p.onoffRowStride ∧ p.nchips ≤ p.chipCs.length ∧
  p.pwmBase.length = p.chipWidth * p.chipHeight ∧
  p.onoffByte.length = p.chipWidth * p.chipHeight ∧
  p.onoffPair.length = p.chipWidth * p.chipHeight ∧
  ∀ j ∈ p.onoffPair, j < 4

/-- 00_scope R9 items 1 and 2. -/
abbrev RegistersOk (p : Params) : Prop :=
  p.isGlobal p.unlockReg = true ∧ p.isGlobal p.pageselReg = true ∧
  p.isGlobal p.configReg = false ∧ p.isGlobal p.gccReg = false ∧
  p.isGlobal p.pwmRegStart = false ∧ p.isGlobal p.onoffRegStart = false

/-- 00_scope R9 items 3 and 4, with the range 1..4 of BUS_CHIP_COUNT (R8). -/
abbrev ChipsOk (p : Params) : Prop :=
  p.nchips ≤ p.busChipCount ∧ 1 ≤ p.busChipCount ∧ p.busChipCount ≤ 4 ∧
  (∀ i < p.nchips, p.chipCs.getD i 0#8 < 0x80#8) ∧
  ((List.range p.nchips).map p.addr8).Nodup ∧
  ((List.range p.nchips).map fun i => p.key (p.addr8 i)).Nodup

/-- The index ranges of 00_scope R9 items 5 and 6: every scratch-buffer byte that a native position names exists. -/
abbrev IndicesFit (p : Params) : Prop :=
  ∀ c ∈ p.nativePositions,
    (∀ k ∈ [0, 1, 2, 3], p.pwmSlot c.1 c.2 k < p.pwmLen) ∧ p.onoffAt c.1 c.2 + p.onoffRowStride < p.onoffLen

/-- 00_scope R9 item 5 (distinctness) and item 7. -/
abbrev BuffersOk (p : Params) : Prop := p.pwmSlots.Nodup ∧ p.pwmLen ≤ 65535 ∧ p.onoffLen ≤ 65535

/-- The index ranges hold (00_scope R9 items 5 and 6). -/
def indicesFit (p : Params) : Bool := decide p.IndicesFit

/-- A well-formed parameter set (00_scope R9); any other is refused as BAD_PARAMETERS (60_exceptions R158). -/
def wellFormed (p : Params) : Bool := decide (p.TypesOk ∧ p.RegistersOk ∧ p.ChipsOk ∧ p.IndicesFit ∧ p.BuffersOk)

end Params

/-! ## Operand checks (60_exceptions R157, checks 4 to 6) -/

/-- Checks 4 and 5: an odd address, then an address that is not configured. -/
def addressCheck (p : Params) (addr : Byte) : Option RefusalReason :=
  if addr.getLsbD 0 then some .oddAddress
  else if p.configured addr then none
  else some .unconfiguredAddress

/-- The checks of 60_exceptions R157 that a decoded command can still fail, in their order; `none` when it passes. -/
def operandCheck (p : Params) : Instr → Option RefusalReason
  | .selectPage addr page =>
    match addressCheck p addr with
    | some r => some r
    | none => if page = p.globalMarker then some .globalPage else none
  | .writeReg addr _ _ => addressCheck p addr
  | .writeSeq addr _ _ => addressCheck p addr
  | .start | .stop | .tx _ | .rx _ | .driverInit | .displayInit _ | .render _ => none

end Sys2Proof
end

