-- ==== Sys2Proof/WellFormed.lean ====
section
/-! DEFINITION. Which commands are well-formed (30_encoding R80, R84; 60_exceptions R157). -/

namespace Sys2Proof

/-- The command has a spelling in the encoding of 30_encoding R80: the data of a WRITE_SEQ has a 16-bit length, and the
Display of a RENDER has `W*H` pixels. -/
def Instr.encodable (p : Params) : Instr → Bool
  | .writeSeq _ _ data => decide (data.length ≤ 65535)
  | .render d => decide (d.length = p.pixelCount)
  | .start | .stop | .tx _ | .rx _ | .selectPage _ _ | .writeReg _ _ _ | .driverInit | .displayInit _ => true

/-- The command is spellable and passes the operand checks of 60_exceptions R157. -/
def Instr.wellFormed (p : Params) (i : Instr) : Bool := i.encodable p && (operandCheck p i).isNone

end Sys2Proof
end

