-- ==== Sys2Proof/Decode.lean ====
section
/-! DEFINITION. The command encoding (30_encoding R78 to R84): a decoder that is total on any byte sequence, then the
encoder, then the host's entry over numbered bits. -/

namespace Sys2Proof

/-- What the decoder reads from the stream: a command or a refusal by name, each with the bytes after it, or the end. -/
inductive Decoded where
  | command (i : Instr) (rest : List Byte)
  | rejected (reason : RefusalReason) (rest : List Byte)
  | endOfStream
  deriving DecidableEq, Repr

/-- A pixel record of 30_encoding R81; none when a reserved flag bit is set (R84 (d)). -/
def decodePixel (b0 b1 b2 b3 flags : Byte) : Option Pixel :=
  if flags.extractLsb' 3 5 = 0#5 then
    some { intensity := b0 ++ b1 ++ b2 ++ b3, gate := flags.getLsbD 0, shorted := flags.getLsbD 1, isOpen := flags.getLsbD 2 }
  else none

/-- `n` pixel records (30_encoding R81); none when the bytes run out or a reserved flag bit is set. -/
def decodePixels : Nat → List Byte → Option (List Pixel)
  | 0, _ => some []
  | n + 1, b0 :: b1 :: b2 :: b3 :: f :: rest =>
    match decodePixel b0 b1 b2 b3 f, decodePixels n rest with
    | some px, some pxs => some (px :: pxs)
    | _, _ => none
  | _ + 1, _ => none

/-- The operand of RX: `0x00` false, `0x01` true, any other refused (30_encoding R84 (a)). -/
def decodeRx (b : Byte) (rest : List Byte) : Decoded :=
  if b = 0x00#8 then .command (.rx false) rest
  else if b = 0x01#8 then .command (.rx true) rest
  else .rejected .badAckOperand rest

/-- WRITE_SEQ after its six header bytes: `len` data bytes follow (30_encoding R80). -/
def decodeSeq (addr : Byte) (reg : RegId) (len : Nat) (rest : List Byte) : Decoded :=
  if rest.length < len then .rejected .truncated []
  else .command (.writeSeq addr reg (rest.take len)) (rest.drop len)

/-- RENDER after its opcode: `W*H` pixel records of five bytes follow (30_encoding R81). -/
def decodeRender (n : Nat) (rest : List Byte) : Decoded :=
  if rest.length < 5 * n then .rejected .truncated []
  else
    match decodePixels n rest with
    | some d => .command (.render d) (rest.drop (5 * n))
    | none => .rejected .reservedPixelFlags (rest.drop (5 * n))

/-- The operands after an opcode byte (30_encoding R79, R80). An opcode that is not in the map is illegal, and decoding
resumes at the next byte; a command that runs past the end of the stream is truncated, and decoding stops (R83). -/
def decodeOperands (p : Params) (opcode : Nat) (bytes : List Byte) : Decoded :=
  match opcode, bytes with
  | 0x01, rest => .command .start rest
  | 0x02, rest => .command .stop rest
  | 0x03, b :: rest => .command (.tx b) rest
  | 0x03, [] => .rejected .truncated []
  | 0x04, b :: rest => decodeRx b rest
  | 0x04, [] => .rejected .truncated []
  | 0x05, addr :: page :: rest => .command (.selectPage addr page) rest
  | 0x05, _ => .rejected .truncated []
  | 0x06, addr :: hi :: lo :: value :: rest => .command (.writeReg addr (hi ++ lo) value) rest
  | 0x06, _ => .rejected .truncated []
  | 0x07, addr :: hi :: lo :: lenHi :: lenLo :: rest => decodeSeq addr (hi ++ lo) (lenHi ++ lenLo).toNat rest
  | 0x07, _ => .rejected .truncated []
  | 0x08, rest => .command .driverInit rest
  | 0x09, gain :: rest => .command (.displayInit gain) rest
  | 0x09, [] => .rejected .truncated []
  | 0x0A, rest => decodeRender p.pixelCount rest
  | _, rest => .rejected .illegalOpcode rest

/-- The decoder (30_encoding R82): every byte sequence is a command, a refusal by name, or the end of the stream (log
9). -/
def decode (p : Params) : List Byte → Decoded
  | [] => .endOfStream
  | op :: rest => decodeOperands p op.toNat rest

/-! ## The encoder -/

/-- The flag byte of a pixel record (30_encoding R81). -/
def encodeFlags (px : Pixel) : Byte :=
  0#5 ++ BitVec.ofBool px.isOpen ++ BitVec.ofBool px.shorted ++ BitVec.ofBool px.gate

/-- The five bytes of a pixel record (30_encoding R81). -/
def encodePixel (px : Pixel) : List Byte :=
  [px.intensity.extractLsb' 24 8, px.intensity.extractLsb' 16 8, px.intensity.extractLsb' 8 8,
   px.intensity.extractLsb' 0 8, encodeFlags px]

/-- The opcode byte of a command (30_encoding R79). -/
def opcodeByte : Instr → Byte
  | .start => 0x01#8
  | .stop => 0x02#8
  | .tx _ => 0x03#8
  | .rx _ => 0x04#8
  | .selectPage _ _ => 0x05#8
  | .writeReg _ _ _ => 0x06#8
  | .writeSeq _ _ _ => 0x07#8
  | .driverInit => 0x08#8
  | .displayInit _ => 0x09#8
  | .render _ => 0x0A#8

/-- The operand bytes of a command (30_encoding R80, R81). -/
def encodeOperands : Instr → List Byte
  | .start | .stop | .driverInit => []
  | .tx b => [b]
  | .rx sendAck => [if sendAck then 0x01#8 else 0x00#8]
  | .selectPage addr page => [addr, page]
  | .writeReg addr reg value => [addr, regPage reg, regOffset reg, value]
  | .writeSeq addr reg data =>
    addr :: regPage reg :: regOffset reg ::
      BitVec.ofNat 8 (data.length / 256) :: BitVec.ofNat 8 (data.length % 256) :: data
  | .displayInit gain => [gain]
  | .render d => d.flatMap encodePixel

/-- The bytes of a command. -/
def encode (i : Instr) : List Byte := opcodeByte i :: encodeOperands i

/-! ## Lengths, and words numbered as opcode_table.json numbers them -/

/-- The length in bytes of the command at the head of a stream (30_encoding R79, R82); an illegal opcode takes one byte.
A length byte that the stream does not hold reads as zero here; only `tableBytes` uses this. -/
def commandLength (p : Params) (bytes : List Byte) : Nat :=
  match (bytes.getD 0 0#8).toNat with
  | 0x03 | 0x04 | 0x09 => 2
  | 0x05 => 3
  | 0x06 => 5
  | 0x07 => 6 + (bytes.getD 4 0#8 ++ bytes.getD 5 0#8).toNat
  | 0x0A => 1 + 5 * p.pixelCount
  | _ => 1

/-- The first `n` bytes of a word, the least significant first. -/
def wordBytes : Nat → Nat → List Byte
  | 0, _ => []
  | n + 1, w => BitVec.ofNat 8 w :: wordBytes n (w / 256)

/-- The bytes of an instruction whose first `nbits` bits are `w` and whose further bits are zero, bit 0 the least
significant bit of the first byte (log 16). -/
def tableBytes (p : Params) (nbits w : Nat) : List Byte :=
  let bytes := wordBytes (nbits / 8) w
  bytes ++ List.replicate (commandLength p bytes - bytes.length) 0#8

/-- The host's entry to the decoder, under the parameter set of `State.reset` (log 16). -/
def decodeTableWord (nbits w : Nat) : Option Instr :=
  match decode Config.buildParams (tableBytes Config.buildParams nbits w) with
  | .command i _ => some i
  | .rejected _ _ => none
  | .endOfStream => none

end Sys2Proof
end

