-- ==== Sys2Proof/Machine/State.lean ====
section
/-! DEFINITION. The state of the block (10_state R20), the inputs of a run (10_state R34), and the ways a step can stop. -/

namespace Sys2Proof.Machine

/-- Scratch-buffer contents: cells at strictly rising addresses, no cell holding the value an unlisted address reads as
(log 6). -/
abbrev Memory := List Host.Cell

/-- What an unlisted byte of a scratch buffer reads as: "Zero at reset" (10_state R35, decision D30). -/
def Memory.unlisted : Byte := 0#8

/-- The canonical form of scratch-buffer contents. -/
abbrev Memory.wf (m : Memory) : Prop := m.Pairwise (fun a b => a.1 < b.1) ∧ ∀ c ∈ m, c.2 ≠ Memory.unlisted

/-- `sdn_out` (10_state R24): `Unset` until DISPLAY_INIT drives it. -/
inductive SdnDrive where
  | unset
  | driven (b : Bool)
  deriving DecidableEq, Repr

/-- A page-cache entry (10_state R25): `Unknown` is distinct from every page byte. -/
inductive CacheEntry where
  | unknown
  | page (p : Byte)
  deriving DecidableEq, Repr

/-- A line event (10_state R27); a line bit is true for 1 (released) and false for 0 (driven low) (00_scope R12). -/
inductive Event where
  | driveScl (b : Bool)
  | driveSda (b : Bool)
  | driveSdn (b : Bool)
  | sample (v : Bool)
  deriving DecidableEq, Repr

/-- The result of a completed command (10_state R32). -/
inductive CmdResult where
  | none
  | bool (b : Bool)
  | byte (v : Byte)
  deriving DecidableEq, Repr

/-- The fault reasons of 60_exceptions R155. -/
inductive FaultReason where
  | busContention
  deriving DecidableEq, Repr

/-- The state of the block: the record of 10_state R20, and below it the inputs of a run (10_state R34), which a step reads
and which the model therefore holds as data (log 1, 2, 3). -/
structure State where
  /-- `scl_out` (10_state R22). -/
  sclOut : Bool
  /-- `sda_out` (10_state R23). -/
  sdaOut : Bool
  /-- `sdn_out` (10_state R24). -/
  sdnOut : SdnDrive
  /-- `cache[k]` (10_state R25), one entry per key. -/
  cache : List CacheEntry
  /-- `pwm_buf` (10_state R26). -/
  pwmBuf : Memory
  /-- `onoff_buf` (10_state R26). -/
  onoffBuf : Memory
  /-- `trace` (10_state R27), oldest event first. -/
  trace : List Event
  /-- `results` (10_state R32), oldest first. -/
  results : List CmdResult
  /-- `in_critical` (10_state R30). -/
  inCritical : Bool
  /-- `fault` (10_state R31). -/
  faultMark : Option FaultReason
  /-- `refused` (10_state R31). -/
  refusedMark : Option RefusalReason
  /-- `cmd_index` (10_state R21). -/
  cmdIndex : Nat
  /-- The parameters on the port CFG (00_scope R6, R7): static. -/
  cfg : Params
  /-- The host's command stream on the port CMD, the bytes not yet taken (30_encoding R78). -/
  stream : List Byte
  /-- The bits the slaves present at the coming samples, first first; past its end the draw is `Config.slaveDraw`
  (00_scope R13, log 3). -/
  draws : List Bool
  /-- The number of draws made so far: the MODEL's own counter, the index of the free value (log 3). -/
  drawCount : Nat
  deriving DecidableEq, Repr

/-- Why a step stops with a fault. -/
inductive Fault where
  /-- Raised by RENDER when a native position of the parameters names a scratch-buffer byte that does not exist (00_scope R9
  items 5 and 6). Such a parameter set is refused before any run (60_exceptions R158), so no run raises it. Safe (log 6). -/
  | noSuchBufferByte
  deriving DecidableEq, Repr

/-- Why a step has no meaning. -/
inductive Refusal where
  /-- An instruction without a meaning in the model: raised by the dispatch alone. Safe. -/
  | notModelled (mnemonic : String)
  /-- The host's command stream is exhausted: the end of a run (00_scope R17). Raised by the step. Safe (log 2). -/
  | endOfStream
  /-- BAD_PARAMETERS (60_exceptions R158): no run of this parameter set exists. Raised by the step. Safe (log 7). -/
  | badParameters
  deriving DecidableEq, Repr

/-- The reset state for a parameter set (10_state R35, 70_reset_and_hazards R175), with no command and no draw given yet
(log 2, 3, 4). -/
def State.resetWith (p : Params) : State where
  sclOut := true
  sdaOut := true
  sdnOut := .unset
  cache := List.replicate p.busChipCount .unknown
  pwmBuf := []
  onoffBuf := []
  trace := []
  results := []
  inCritical := false
  faultMark := none
  refusedMark := none
  cmdIndex := 0
  cfg := p
  stream := []
  draws := []
  drawCount := 0

/-- The machine right after reset (10_state R35), under the parameter set of log 1. -/
def State.reset : State := State.resetWith Config.buildParams

end Sys2Proof.Machine
end

