-- ==== Sys2Proof/Machine/Flags.lean ====
section
/-! DEFINITION. The block has no flags register (10_state R33). The one status it computes is the acknowledgement result of
a command: a sampled low is an ack, and a command's acks are ANDed (60_exceptions R151). -/

namespace Sys2Proof.Machine

/-- `true` iff the sampled line was low (40_transport R94). -/
def ackOf (v : Bool) : Bool := !v

/-- `ok <- new & ok`: no short circuit, both sides have been evaluated (41_chip_driver R112). -/
def foldAck (new ok : Bool) : Bool := new && ok

end Sys2Proof.Machine
end

