-- ==== Sys2Proof/Machine/Ops.lean ====
section
/-! DEFINITION. The shared operations: the pseudocode primitives of 00_scope R11, the four transport sequences of
40_transport, the scratch buffers, the page cache, the driver operations of 41_chip_driver, and the ways a command ends. -/

namespace Sys2Proof.Machine

/-! ## Scratch buffers (00_scope R11, 10_state R26) -/

/-- `buf[a]`. -/
def Memory.read (m : Memory) (a : Nat) : Byte :=
  match m with
  | [] => Memory.unlisted
  | (b, v) :: rest => if a = b then v else Memory.read rest a

/-- A cell in front of the cells above it; a byte at the unlisted value has no cell. -/
def Memory.cons (a : Nat) (v : Byte) (rest : Memory) : Memory :=
  if v = Memory.unlisted then rest else (a, v) :: rest

/-- `buf[a] <- v`. -/
def Memory.write (m : Memory) (a : Nat) (v : Byte) : Memory :=
  match m with
  | [] => Memory.cons a v []
  | (b, w) :: rest =>
    if a < b then Memory.cons a v ((b, w) :: rest)
    else if a = b then Memory.cons a v rest
    else (b, w) :: Memory.write rest a v

/-- The bytes `buf[0 .. len-1]`. -/
def Memory.bytes (m : Memory) (len : Nat) : List Byte := (List.range len).map (Memory.read m)

/-! ## The slave oracle (00_scope R13) -/

/-- The bit the slaves present at the `n`-th coming sample: the environment's list gives it, and past the list's end it is
the free value (log 3). -/
def State.drawAt (s : State) (n : Nat) : Bool := s.draws.getD n (Config.slaveDraw (s.drawCount + n))

/-- One draw is used up. -/
def takeDraw (s : State) : State := { s with draws := s.draws.drop 1, drawCount := s.drawCount + 1 }

/-! ## Line primitives (00_scope R11) -/

/-- `Delay()`: it changes no state and appends nothing (log 14). -/
def delay (s : State) : State := s

/-- `SetSCL(b)`. -/
def setScl (b : Bool) (s : State) : State := delay { s with sclOut := b, trace := s.trace ++ [.driveScl b] }

/-- `SetSDA(b)`. -/
def setSda (b : Bool) (s : State) : State := delay { s with sdaOut := b, trace := s.trace ++ [.driveSda b] }

/-- `SetSDN(b)`: no delay follows it (70_reset_and_hazards R195). -/
def setSdn (b : Bool) (s : State) : State := { s with sdnOut := .driven b, trace := s.trace ++ [.driveSdn b] }

/-- `Sample()`: the wired AND of the block's drive and the slaves' bit (10_state R28). -/
def sample (s : State) : Bool × State :=
  let v := s.sdaOut && s.drawAt 0
  (v, takeDraw { s with trace := s.trace ++ [.sample v] })

/-- `EnterCritical()` (20_memory R50, log 15). -/
def enterCritical (s : State) : State := { s with inCritical := true }

/-- `ExitCritical()` (20_memory R50). -/
def exitCritical (s : State) : State := { s with inCritical := false }

/-! ## Transport sequences (40_transport) -/

/-- The bit indices of a byte in wire order, most significant first (20_memory R44). -/
def msbFirst : List Nat := [7, 6, 5, 4, 3, 2, 1, 0]

/-- The line sequence of START (40_transport R91). -/
def start (s : State) : State := setScl false (setSda false (setScl true (setSda true s)))

/-- The line sequence of STOP (40_transport R93). -/
def stop (s : State) : State := setSda true (setScl true (setSda false s))

/-- One data bit cell of TX: data before the clock pulse, then the pulse (40_transport R94). -/
def txCell (b : Bool) (s : State) : State := setScl false (setScl true (setSda b s))

/-- The eight data bit cells of TX, most significant bit first (40_transport R94). -/
def txCells (byte : Byte) (s : State) : State := msbFirst.foldl (fun s i => txCell (byte.getLsbD i) s) s

/-- The line sequence of TX with its acknowledgement (40_transport R94). -/
def tx (byte : Byte) (s : State) : Bool × State :=
  let sampled := sample (setScl true (setSda true (txCells byte s)))
  (ackOf sampled.1, setScl false sampled.2)

/-- One data bit cell of RX: the sample goes in at the low end of `v` (40_transport R96). -/
def rxCell (vs : Byte × State) : Byte × State :=
  let sampled := sample (setScl true vs.2)
  ((vs.1 <<< 1) ||| (BitVec.ofBool sampled.1).setWidth 8, setScl false sampled.2)

/-- The line sequence of RX with the received byte; the ack is driven low, a withheld one is released (40_transport R96). -/
def rx (sendAck : Bool) (s : State) : Byte × State :=
  let received := msbFirst.foldl (fun vs _ => rxCell vs) (0#8, setSda true s)
  (received.1, setSda true (setScl false (setScl true (setSda (!sendAck) received.2))))

/-! ## Driver operations (41_chip_driver) -/

/-- TX of every byte in order, the acks folded into `ok`; no early exit (41_chip_driver R112). -/
def txAll (bytes : List Byte) (ok : Bool) (s : State) : Bool × State :=
  match bytes with
  | [] => (ok, s)
  | b :: rest =>
    let sent := tx b s
    txAll rest (foldAck sent.1 ok) sent.2

/-- What a transaction does between START and STOP, both included: the address byte with the write bit, then the bytes
(41_chip_driver R112). -/
def transaction (addr : Byte) (bytes : List Byte) (s : State) : Bool × State :=
  let first := tx (addr ||| Config.writeBit) (start s)
  let sent := txAll bytes first.1 first.2
  (sent.1, stop sent.2)

/-- `BusWrite(addr, bytes)`: one transaction inside a critical section (41_chip_driver R112, 20_memory R50). -/
def busWrite (addr : Byte) (bytes : List Byte) (s : State) : Bool × State :=
  let done := transaction addr bytes (enterCritical s)
  (done.1, exitCritical done.2)

/-- `cache[k]`; a key without an entry reads `Unknown` (log 17). -/
def State.cacheAt (s : State) (k : Nat) : CacheEntry := s.cache.getD k .unknown

/-- `cache[k] <- e`. -/
def setCache (k : Nat) (e : CacheEntry) (s : State) : State := { s with cache := s.cache.set k e }

/-- `cache[k] <- Unknown` for every key (41_chip_driver R121). -/
def clearCache (s : State) : State := { s with cache := List.replicate s.cfg.busChipCount .unknown }

/-- `SelectPage(addr, page)` (41_chip_driver R113). -/
def selectPage (addr page : Byte) (s : State) : Bool × State :=
  let k := s.cfg.key addr
  if s.cacheAt k = .page page then (true, s)
  else
    let unlocked := busWrite addr [regOffset s.cfg.unlockReg, s.cfg.unlockMagic] s
    let selected := busWrite addr [regOffset s.cfg.pageselReg, page] unlocked.2
    (foldAck unlocked.1 selected.1, setCache k (.page page) selected.2)

/-- `SelectPage` for a paged register, nothing for a global one (41_chip_driver R115). -/
def selectFor (addr : Byte) (reg : RegId) (s : State) : Bool × State :=
  if s.cfg.isGlobal reg then (true, s) else selectPage addr (regPage reg) s

/-- `WriteReg(addr, reg, value)`: the register write is always issued (41_chip_driver R115). -/
def writeReg (addr : Byte) (reg : RegId) (value : Byte) (s : State) : Bool × State :=
  let selected := selectFor addr reg s
  let written := busWrite addr [regOffset reg, value] selected.2
  (foldAck written.1 selected.1, written.2)

/-- `WriteSeq(addr, start_reg, data)`: a burst to a global register is rejected before any bus activity
(41_chip_driver R117, 60_exceptions R152). -/
def writeSeq (addr : Byte) (startReg : RegId) (data : List Byte) (s : State) : Bool × State :=
  if s.cfg.isGlobal startReg then (false, s)
  else
    let selected := selectPage addr (regPage startReg) s
    let written := busWrite addr (regOffset startReg :: data) selected.2
    (foldAck written.1 selected.1, written.2)

/-- A loop over indices whose body answers an acknowledgement: `ok <- body(i) & ok` (41_chip_driver R123, 42_serializer
R141). -/
def forEach (body : Nat → State → Bool × State) (indices : List Nat) (ok : Bool) (s : State) : Bool × State :=
  match indices with
  | [] => (ok, s)
  | i :: rest =>
    let done := body i s
    forEach body rest (foldAck done.1 ok) done.2

/-! ## How a command ends (10_state R21, R32; 60_exceptions R155, R156) -/

/-- A command completes with a result: one entry of `results`, and `cmd_index` one more. -/
def complete (r : CmdResult) (s : State) : State := { s with results := s.results ++ [r], cmdIndex := s.cmdIndex + 1 }

/-- A command that ends with an acknowledgement result. -/
def completeBool (done : Bool × State) : State := complete (.bool done.1) done.2

/-- `refuse(r)`: the first refusal is kept, and the command completes with the result `None` (60_exceptions R156). -/
def refuse (r : RefusalReason) (s : State) : State :=
  complete .none { s with refusedMark := s.refusedMark.or (some r) }

/-- `raise Fault(r)`: the first fault is kept, and the command ends with the result `None` (60_exceptions R155). No command
raises one. DESIGN CHOICE (log 22): everything else stays as it stands, so a fault inside a transaction leaves `in_critical`
true and the lines where they are; R155 does not say, and R30 speaks of commands that run to completion. -/
def raiseFault (r : FaultReason) (s : State) : State :=
  complete .none { s with faultMark := s.faultMark.or (some r) }

/-- A command with its operand check: a failing check refuses the command before any state is written, and the refused
command completes (60_exceptions R156, R157, R160). -/
def guarded (check : Option RefusalReason) (body : State → State) (s : State) : State :=
  match check with
  | some r => refuse r s
  | none => body s

end Sys2Proof.Machine
end

