-- ==== Sys2Proof/Machine/Driver.lean ====
section
/-! DEFINITION. The meanings of the chip-driver commands (41_chip_driver). -/

namespace Sys2Proof.Machine

/-- SELECT_PAGE (41_chip_driver R113). -/
def execSelectPage (addr page : Byte) (s : State) : Host.Outcome State Fault Refusal :=
  .next (guarded (operandCheck s.cfg (.selectPage addr page)) (fun s => completeBool (selectPage addr page s)) s)

/-- WRITE_REG (41_chip_driver R115). -/
def execWriteReg (addr : Byte) (reg : RegId) (value : Byte) (s : State) : Host.Outcome State Fault Refusal :=
  .next (guarded (operandCheck s.cfg (.writeReg addr reg value)) (fun s => completeBool (writeReg addr reg value s)) s)

/-- WRITE_SEQ (41_chip_driver R117). -/
def execWriteSeq (addr : Byte) (startReg : RegId) (data : List Byte) (s : State) : Host.Outcome State Fault Refusal :=
  .next (guarded (operandCheck s.cfg (.writeSeq addr startReg data))
    (fun s => completeBool (writeSeq addr startReg data s)) s)

/-- DRIVER_INIT (41_chip_driver R121). -/
def execDriverInit (s : State) : Host.Outcome State Fault Refusal := .next (complete .none (clearCache s))

/-- What DISPLAY_INIT does for chip `i`: the config register, then the GCC register (41_chip_driver R123). -/
def initChip (gain : Byte) (i : Nat) (s : State) : Bool × State :=
  let config := writeReg (s.cfg.addr8 i) s.cfg.configReg (s.cfg.cfgByte i) s
  let gcc := writeReg (s.cfg.addr8 i) s.cfg.gccReg gain config.2
  (foldAck gcc.1 config.1, gcc.2)

/-- DISPLAY_INIT (41_chip_driver R123): the shutdown line, the cache, then every chip in ascending order. -/
def execDisplayInit (gain : Byte) (s : State) : Host.Outcome State Fault Refusal :=
  .next (completeBool (forEach (initChip gain) (List.range s.cfg.nchips) true (clearCache (setSdn true s))))

end Sys2Proof.Machine
end

