-- ==== Sys2Proof/Machine/Serializer.lean ====
section
/-! DEFINITION. The pixel-grid serializer and the meaning of RENDER (42_serializer). -/

namespace Sys2Proof.Machine

/-- The byte a pixel puts into its PWM slot `k`: byte `k` of the intensity, least significant first (42_serializer R134),
or the intensity saturated to one byte (R135). -/
def pwmByte (scheme : PwmScheme) (intensity : Intensity) (k : Nat) : Byte :=
  match scheme with
  | .fourByte => intensity.extractLsb' (8 * k) 8
  | .clampReplicate => BitVec.ofNat 8 (min intensity.toNat 255)

/-- The four PWM slots of the pixel at native position `(cx, cy)` (42_serializer R134, R135), whatever its gate (R136). -/
def pwmPixel (p : Params) (cx cy : Nat) (px : Pixel) (m : Memory) : Memory :=
  [0, 1, 2, 3].foldl (fun m k => Memory.write m (p.pwmSlot cx cy k) (pwmByte p.pwmScheme px.intensity k)) m

/-- `0b11 << (2*j)`: both bits of pair `j` (42_serializer R137, 30_encoding R70). -/
def pairMask (j : Nat) : Byte := 0b11#8 <<< (2 * j)

/-- `buf[a] <- buf[a] | m` (42_serializer R137). -/
def Memory.orByte (m : Memory) (a : Nat) (mask : Byte) : Memory := Memory.write m a (Memory.read m a ||| mask)

/-- The on/off bits of the pixel at native position `(cx, cy)`: a gated pixel sets its pair in two bytes, any other pixel
writes nothing (42_serializer R137). -/
def onoffPixel (p : Params) (cx cy : Nat) (px : Pixel) (m : Memory) : Memory :=
  if px.gate then
    let mask := pairMask (p.onoffPairAt cx cy)
    let q := p.onoffAt cx cy
    Memory.orByte (Memory.orByte m q mask) (q + p.onoffRowStride) mask
  else m

/-- What the pixel at native position `c` of chip `i` writes; a position without a pixel is not written (42_serializer
R133, log 10). -/
def buildAt (write : Nat → Nat → Pixel → Memory → Memory) (p : Params) (d : Display) (i : Nat) (m : Memory)
    (c : Nat × Nat) : Memory :=
  match p.pixelAt d i c.1 c.2 with
  | some px => write c.1 c.2 px m
  | none => m

/-- A buffer built from all zero by the pixels of chip `i`'s region (42_serializer R139). -/
def buildBuffer (write : Nat → Nat → Pixel → Memory → Memory) (p : Params) (d : Display) (i : Nat) : Memory :=
  (p.covered i).foldl (buildAt write p d i) []

/-- The PWM buffer `P` of `Serialize(D, i)` (42_serializer R134, R135, R139). -/
def serializePwm (p : Params) (d : Display) (i : Nat) : Memory := buildBuffer (pwmPixel p) p d i

/-- The on/off buffer `O` of `Serialize(D, i)` (42_serializer R137, R139). -/
def serializeOnoff (p : Params) (d : Display) (i : Nat) : Memory := buildBuffer (onoffPixel p) p d i

/-- `(pwm_buf, onoff_buf) <- Serialize(D, i)` (42_serializer R141). -/
def loadBuffers (d : Display) (i : Nat) (s : State) : State :=
  { s with pwmBuf := serializePwm s.cfg d i, onoffBuf := serializeOnoff s.cfg d i }

/-- "the scratch buffers are cleared before the next chip" (42_serializer R140). -/
def clearBuffers (s : State) : State := { s with pwmBuf := [], onoffBuf := [] }

/-- What RENDER does for chip `i` (42_serializer R141). -/
def renderChip (d : Display) (i : Nat) (s : State) : Bool × State :=
  let loaded := loadBuffers d i s
  let pwm := writeSeq (loaded.cfg.addr8 i) loaded.cfg.pwmRegStart (Memory.bytes loaded.pwmBuf loaded.cfg.pwmLen) loaded
  let onoff := writeSeq (pwm.2.cfg.addr8 i) pwm.2.cfg.onoffRegStart (Memory.bytes pwm.2.onoffBuf pwm.2.cfg.onoffLen) pwm.2
  (foldAck onoff.1 pwm.1, clearBuffers onoff.2)

/-- RENDER (42_serializer R141): every chip in ascending order. A parameter set that names a scratch-buffer byte that does
not exist faults; 60_exceptions R158 admits no run of one (log 6). -/
def execRender (d : Display) (s : State) : Host.Outcome State Fault Refusal :=
  if s.cfg.indicesFit then .next (completeBool (forEach (renderChip d) (List.range s.cfg.nchips) true s))
  else .fault .noSuchBufferByte

end Sys2Proof.Machine
end

