-- ==== Sys2Proof/Machine/Transport.lean ====
section
/-! DEFINITION. The meanings of the transport commands (40_transport). -/

namespace Sys2Proof.Machine

/-- START (40_transport R91). -/
def execStart (s : State) : Host.Outcome State Fault Refusal := .next (complete .none (start s))

/-- STOP (40_transport R93). -/
def execStop (s : State) : Host.Outcome State Fault Refusal := .next (complete .none (stop s))

/-- TX (40_transport R94): a missing acknowledgement is the result false. -/
def execTx (byte : Byte) (s : State) : Host.Outcome State Fault Refusal := .next (completeBool (tx byte s))

/-- RX (40_transport R96). -/
def execRx (sendAck : Bool) (s : State) : Host.Outcome State Fault Refusal :=
  let received := rx sendAck s
  .next (complete (.byte received.1) received.2)

end Sys2Proof.Machine
end

