-- ==== Sys2Proof/Machine/Dispatch.lean ====
section
/-! DEFINITION. One arm per command (30_encoding R79). -/

namespace Sys2Proof.Machine

def exec (i : Instr) (s : State) : Host.Outcome State Fault Refusal :=
  match i with
  | .start => Sys2Proof.Machine.execStart s
  | .stop => Sys2Proof.Machine.execStop s
  | .tx byte => Sys2Proof.Machine.execTx byte s
  | .rx sendAck => Sys2Proof.Machine.execRx sendAck s
  | .selectPage addr page => Sys2Proof.Machine.execSelectPage addr page s
  | .writeReg addr reg value => Sys2Proof.Machine.execWriteReg addr reg value s
  | .writeSeq addr startReg data => Sys2Proof.Machine.execWriteSeq addr startReg data s
  | .driverInit => Sys2Proof.Machine.execDriverInit s
  | .displayInit gain => Sys2Proof.Machine.execDisplayInit gain s
  | .render display => Sys2Proof.Machine.execRender display s

end Sys2Proof.Machine
end

