-- ==== Sys2Proof/Machine/Step.lean ====
section
/-! DEFINITION. One step of the block: one host command, run to completion (00_scope R3, 10_state R21). -/

namespace Sys2Proof.Machine

/-- The state after the bytes of a command have been taken from the stream. -/
def State.withStream (s : State) (rest : List Byte) : State := { s with stream := rest }

/-- One step. An ill-formed parameter set has no run (60_exceptions R158); an exhausted stream ends the run (00_scope R17); a
refused encoding completes as a refused command (60_exceptions R156, R157); any other command runs under its own rule,
whatever marks are set (10_state R31). -/
def step (s : State) : Host.Outcome State Fault Refusal :=
  if s.cfg.wellFormed then
    match decode s.cfg s.stream with
    | .endOfStream => .refused .endOfStream
    | .rejected reason rest => .next (refuse reason (s.withStream rest))
    | .command i rest => exec i (s.withStream rest)
  else .refused .badParameters

/-- `s` with the one instruction whose first bits are `w` as its whole command stream (log 16). -/
def State.withFetchWord (s : State) (nbits w : Nat) : State := { s with stream := tableBytes s.cfg nbits w }

end Sys2Proof.Machine
end

