-- ==== Sys2Proof/Machine/Assembly.lean ====
section
/-! DEFINITION. The pseudo-instructions and their expansions (30_encoding R86), and the assembler line of a command
(30_encoding R85). -/

namespace Sys2Proof

/-- The pseudo-instructions of 30_encoding R86. -/
inductive Pseudo where
  | unlock (addr : Byte)
  | pageWrite (addr page : Byte)
  | rawWrite (addr offset value : Byte)
  | probe (addr : Byte)
  deriving DecidableEq, Repr

namespace Machine

/-- The expansion of a pseudo-instruction (30_encoding R86). -/
def expandPseudo (p : Params) : Pseudo → List Instr
  | .unlock a => [.writeReg a p.unlockReg p.unlockMagic]
  | .pageWrite a page => [.writeReg a p.pageselReg page]
  | .rawWrite a off v => [.start, .tx a, .tx off, .tx v, .stop]
  | .probe a => [.start, .tx a, .stop]

/-- A hexadecimal digit. -/
def hexDigit (n : Nat) : Char := (['0', '1', '2', '3', '4', '5', '6', '7', '8', '9', 'A', 'B', 'C', 'D', 'E', 'F']).getD n '0'

/-- A byte as `0x` and two digits. -/
def hexByte (b : Byte) : List Char := ['0', 'x', hexDigit (b.toNat / 16), hexDigit (b.toNat % 16)]

/-- A register identifier as `0x` and four digits. -/
def hexReg (r : RegId) : List Char := hexByte (regPage r) ++ (hexByte (regOffset r)).drop 2

/-- Items separated by commas. -/
def commaList : List (List Char) → List Char
  | [] => []
  | [x] => x
  | x :: rest => x ++ [',', ' '] ++ commaList rest

/-- The assembler line of a command (30_encoding R85, log 11); the Display of a RENDER is supplied out of line under `name`. -/
def assemblyLine (name : List Char) : Instr → List Char
  | .start => "start".toList
  | .stop => "stop".toList
  | .tx b => "tx ".toList ++ hexByte b
  | .rx sendAck => "rx ".toList ++ (if sendAck then "ack".toList else "nack".toList)
  | .selectPage a page => "select_page ".toList ++ commaList [hexByte a, hexByte page]
  | .writeReg a r v => "write_reg ".toList ++ commaList [hexByte a, hexReg r, hexByte v]
  | .writeSeq a r data =>
    "write_seq ".toList ++ commaList [hexByte a, hexReg r, ['['] ++ commaList (data.map hexByte) ++ [']']]
  | .driverInit => "driver_init".toList
  | .displayInit gain => "display_init ".toList ++ hexByte gain
  | .render _ => "render ".toList ++ name

end Machine

end Sys2Proof
end

