-- ==== Sys2Proof/Machine/OtherAgent.lean ====
section
/-! DEFINITION. The step of another bus master, for a model with more than one bus agent (60_exceptions R155, R159). The
single-host model has no such agent: `step` does not call this (log 12). -/

namespace Sys2Proof.Machine

/-- Another agent is stepped: the fault BUS_CONTENTION while a transaction is in progress; outside one, what the parameter
OTHER_MASTER_SEMANTICS says, any outcome at all (60_exceptions R159, decision D35). DESIGN CHOICE (log 22): the faulted state
is still inside the transaction. -/
def otherAgentStep (otherMasterSemantics : State → Host.Outcome State Fault Refusal) (s : State) :
    Host.Outcome State Fault Refusal :=
  if s.inCritical then .next (raiseFault .busContention s) else otherMasterSemantics s

end Sys2Proof.Machine
end

