-- ==== Sys2Proof/Machine/Wire.lean ====
section
/-! DEFINITION. The wire formats of 30_encoding as lists of line events, the frames the driver operations put on the bus,
and the reading of a trace by a two-wire receiver (10_state R28, 30_encoding R72). Claims are stated with these; no meaning
of a command uses them. -/

namespace Sys2Proof.Machine

/-! ## Wire formats (30_encoding R65, R66, R72, R73; 40_transport R91 to R96) -/

/-- The four events of START (40_transport R91). -/
def startEvents : List Event := [.driveSda true, .driveScl true, .driveSda false, .driveScl false]

/-- The three events of STOP (40_transport R93). -/
def stopEvents : List Event := [.driveSda false, .driveScl true, .driveSda true]

/-- The bit cell of a driven bit (30_encoding R72). -/
def cellEvents (b : Bool) : List Event := [.driveSda b, .driveScl true, .driveScl false]

/-- The 28 events of TX of a byte whose ninth clock samples `v` (30_encoding R73, R74). -/
def txEvents (byte : Byte) (v : Bool) : List Event :=
  cellEvents (byte.getLsbD 7) ++ cellEvents (byte.getLsbD 6) ++ cellEvents (byte.getLsbD 5) ++
  cellEvents (byte.getLsbD 4) ++ cellEvents (byte.getLsbD 3) ++ cellEvents (byte.getLsbD 2) ++
  cellEvents (byte.getLsbD 1) ++ cellEvents (byte.getLsbD 0) ++
  [.driveSda true, .driveScl true, .sample v, .driveScl false]

/-- The bit cell of a received bit (40_transport R96). -/
def rxCellEvents (v : Bool) : List Event := [.driveScl true, .sample v, .driveScl false]

/-- The byte of the eight sampled bits `d 0 .. d 7`, the first in bit 7 (40_transport R96, decision D37). -/
def byteOfBits (d : Nat → Bool) : Byte :=
  BitVec.ofBool (d 0) ++ BitVec.ofBool (d 1) ++ BitVec.ofBool (d 2) ++ BitVec.ofBool (d 3) ++
  BitVec.ofBool (d 4) ++ BitVec.ofBool (d 5) ++ BitVec.ofBool (d 6) ++ BitVec.ofBool (d 7)

/-- The 29 events of RX (40_transport R96, 30_encoding R74). -/
def rxEvents (sendAck : Bool) (d : Nat → Bool) : List Event :=
  [.driveSda true] ++
  rxCellEvents (d 0) ++ rxCellEvents (d 1) ++ rxCellEvents (d 2) ++ rxCellEvents (d 3) ++
  rxCellEvents (d 4) ++ rxCellEvents (d 5) ++ rxCellEvents (d 6) ++ rxCellEvents (d 7) ++
  [.driveSda (!sendAck), .driveScl true, .driveScl false, .driveSda true]

/-- The bytes of one transaction, the address byte first. -/
abbrev Frame := List Byte

/-- Byte after byte with its acknowledge slot; `d n` is the sample of the `n`-th slot (30_encoding R65, R66). -/
def bytesEvents (bytes : List Byte) (d : Nat → Bool) : List Event :=
  match bytes with
  | [] => []
  | b :: rest => txEvents b (d 0) ++ bytesEvents rest (fun n => d (n + 1))

/-- The frame `START | bytes with their acknowledge slots | STOP` (30_encoding R65, R66). -/
def frameEvents (f : Frame) (d : Nat → Bool) : List Event := startEvents ++ bytesEvents f d ++ stopEvents

/-- Frame after frame. -/
def framesEvents (fs : List Frame) (d : Nat → Bool) : List Event :=
  match fs with
  | [] => []
  | f :: rest => frameEvents f d ++ framesEvents rest (fun n => d (n + f.length))

/-- The number of bytes, and so of acknowledge slots, in some frames. -/
def slotCount (fs : List Frame) : Nat := (fs.map List.length).sum

/-- Every one of the next `n` acknowledge slots is an ack: the sampled bit is 0. -/
def allAcked (n : Nat) (d : Nat → Bool) : Bool := (List.range n).all fun j => ackOf (d j)

/-- The number of `Delay()`s that the line writes of some events make: one for each write of SCL or SDA
(70_reset_and_hazards R195). -/
def delaysOf (es : List Event) : Nat :=
  (es.filter fun e => match e with
    | .driveScl _ | .driveSda _ => true
    | .driveSdn _ | .sample _ => false).length

/-! ## What a state looks like after some frames -/

/-- `n` draws are used up. -/
def dropDraws (n : Nat) (s : State) : State := { s with draws := s.draws.drop n, drawCount := s.drawCount + n }

/-- The state after the block has sent at least one frame, `fs`, and nothing else: both lines released, outside any critical
section, the frames' events appended, one draw used for each byte. -/
def sentFrames (fs : List Frame) (s : State) : State :=
  dropDraws (slotCount fs)
    { s with sclOut := true, sdaOut := true, inCritical := false, trace := s.trace ++ framesEvents fs s.drawAt }

/-- The state after a command that put the frames `fs` on the bus and answered the AND of their acknowledgements
(41_chip_driver R112): both lines released, outside any critical section, the frames' events appended, one draw used for
each byte, one more result and one more completed command; everything else unchanged. -/
def ranFrames (fs : List Frame) (s : State) : State :=
  { s with
    sclOut := true
    sdaOut := true
    inCritical := false
    trace := s.trace ++ framesEvents fs s.drawAt
    draws := s.draws.drop (slotCount fs)
    drawCount := s.drawCount + slotCount fs
    results := s.results ++ [.bool (allAcked (slotCount fs) s.drawAt)]
    cmdIndex := s.cmdIndex + 1 }

/-! ## The frames of the driver operations (30_encoding R65 to R67) -/

/-- The page-select exchange: the unlock frame, then the page-select frame (30_encoding R65, R67). -/
def selectFrames (p : Params) (addr page : Byte) : List Frame :=
  [[addr, regOffset p.unlockReg, p.unlockMagic], [addr, regOffset p.pageselReg, page]]

/-- The page-select exchange that a page cache calls for: none on a hit (41_chip_driver R113). -/
def selectFramesFrom (entry : CacheEntry) (p : Params) (addr page : Byte) : List Frame :=
  if entry = .page page then [] else selectFrames p addr page

/-- The frames that DISPLAY_INIT sends to chip `i`, from an Unknown entry (41_chip_driver R123). -/
def initFrames (p : Params) (gain : Byte) (i : Nat) : List Frame :=
  selectFrames p (p.addr8 i) (regPage p.configReg) ++ [[p.addr8 i, regOffset p.configReg, p.cfgByte i]] ++
  selectFramesFrom (.page (regPage p.configReg)) p (p.addr8 i) (regPage p.gccReg) ++
  [[p.addr8 i, regOffset p.gccReg, gain]]

/-- The frames that RENDER sends to chip `i`, whose entry is `entry`: the PWM burst, then the on/off burst (42_serializer
R141). -/
def renderFrames (p : Params) (d : Display) (entry : CacheEntry) (i : Nat) : List Frame :=
  selectFramesFrom entry p (p.addr8 i) (regPage p.pwmRegStart) ++
  [p.addr8 i :: regOffset p.pwmRegStart :: Memory.bytes (serializePwm p d i) p.pwmLen] ++
  selectFramesFrom (.page (regPage p.pwmRegStart)) p (p.addr8 i) (regPage p.onoffRegStart) ++
  [p.addr8 i :: regOffset p.onoffRegStart :: Memory.bytes (serializeOnoff p d i) p.onoffLen]

/-- A page cache in which the entry of every configured chip is `Page(page)`, and any other entry as in `cache`. -/
def cacheSelecting (p : Params) (page : Byte) (cache : List CacheEntry) : List CacheEntry :=
  cache.mapIdx fun k e => if (List.range p.nchips).any (fun i => p.key (p.addr8 i) == k) then .page page else e

/-! ## A receiver's reading of the lines (10_state R28, 30_encoding R72; PRESUMED, log 13) -/

/-- A condition on the wire. -/
inductive Condition where
  | startCondition
  | stopCondition
  deriving DecidableEq, Repr

/-- What a receiver on the wire has seen of the block's drive: the levels, the level latched by a clock pulse that is still
high, the bits of the frame that is open, the bits of the closed frames, and the conditions. -/
structure Receiver where
  scl : Bool
  sda : Bool
  latched : Option Bool
  openBits : Option (List Bool)
  closed : List (List Bool)
  conditions : List Condition
  deriving DecidableEq, Repr

/-- A receiver that has seen nothing of an idle bus. -/
def Receiver.idle : Receiver := ⟨true, true, none, none, [], []⟩

/-- SDA changes: a fall while SCL is high is a START condition, a rise while SCL is high a STOP condition
(10_state R28). Either closes an open frame. -/
def Receiver.onSda (r : Receiver) (b : Bool) : Receiver :=
  if r.scl && r.sda && !b then
    { r with sda := b, latched := none, openBits := some [], closed := r.closed ++ r.openBits.toList,
             conditions := r.conditions ++ [.startCondition] }
  else if r.scl && !r.sda && b then
    { r with sda := b, latched := none, openBits := none, closed := r.closed ++ r.openBits.toList,
             conditions := r.conditions ++ [.stopCondition] }
  else { r with sda := b }

/-- SCL changes: a bit is the SDA level of a whole pulse in which no condition stood (30_encoding R72). -/
def Receiver.onScl (r : Receiver) (b : Bool) : Receiver :=
  if !r.scl && b then { r with scl := true, latched := some r.sda }
  else if r.scl && !b then
    { r with scl := false, latched := none, openBits := r.openBits.map (· ++ r.latched.toList) }
  else r

/-- One event; the shutdown line and the block's own samples do not change what the block drives on the bus. -/
def Receiver.onEvent (r : Receiver) : Event → Receiver
  | .driveSda b => r.onSda b
  | .driveScl b => r.onScl b
  | .driveSdn _ => r
  | .sample _ => r

/-- The receiver after some events. -/
def Receiver.read (r : Receiver) (es : List Event) : Receiver := es.foldl Receiver.onEvent r

/-- The bytes of a frame's bits: eight bits, most significant first, and an acknowledge slot (20_memory R44, 30_encoding
R73). -/
def bytesOfBits : List Bool → Frame
  | b7 :: b6 :: b5 :: b4 :: b3 :: b2 :: b1 :: b0 :: _ack :: rest =>
    (BitVec.ofBool b7 ++ BitVec.ofBool b6 ++ BitVec.ofBool b5 ++ BitVec.ofBool b4 ++
      BitVec.ofBool b3 ++ BitVec.ofBool b2 ++ BitVec.ofBool b1 ++ BitVec.ofBool b0 : Byte) :: bytesOfBits rest
  | _ => []

/-- The frames a receiver has seen closed. -/
def Receiver.frames (r : Receiver) : List Frame := r.closed.map bytesOfBits

/-- The page that chip `i` was last told to select by the frames on the wire: the value of the last register-write frame to
its address at the offset of PAGESEL_REG (assumption A1 of 41_chip_driver R119). -/
def pageToldTo (p : Params) (i : Nat) (fs : List Frame) : Option Byte :=
  fs.foldl (fun told f => if f.take 2 = [p.addr8 i, regOffset p.pageselReg] ∧ f.length = 3 then f.getLast? else told) none

end Sys2Proof.Machine
end

