-- ==== Sys2Proof/Safety.lean ====
section
/-! DEFINITION. What counts as a safe run, in the terms claims use: the marks, the idle bus, the invariant of command
boundaries, the observation of a run, and what the page cache promises. -/

namespace Sys2Proof.Machine

/-- No fault and no refusal is marked: only such a run satisfies claims (00_scope R16). -/
abbrev State.Clean (s : State) : Prop := s.faultMark = none ∧ s.refusedMark = none

/-- The bus is idle (10_state R29). -/
abbrev State.Idle (s : State) : Prop := s.sclOut = true ∧ s.sdaOut = true

/-- What is observed of a run (00_scope R16): the trace, the results, the page cache and the marks. -/
def State.observation (s : State) : List Event × List CmdResult × List CacheEntry × Option FaultReason × Option RefusalReason :=
  (s.trace, s.results, s.cache, s.faultMark, s.refusedMark)

/-- What holds at every command boundary of a run: the parameters are well-formed (60_exceptions R158), the cache has
BUS_CHIP_COUNT entries (10_state R25), both scratch buffers are all zero (10_state R26), no transaction is in progress
(10_state R30), SCL is released only on an idle bus (40_transport R99), every completed command has one result (10_state
R32), and no fault is marked (60_exceptions R155). -/
structure Inv (s : State) : Prop where
  params : s.cfg.wellFormed = true
  cacheLength : s.cache.length = s.cfg.busChipCount
  pwmZero : s.pwmBuf = []
  onoffZero : s.onoffBuf = []
  notCritical : s.inCritical = false
  releasedIsIdle : s.sclOut = true → s.sdaOut = true
  oneResultEach : s.results.length = s.cmdIndex
  noFault : s.faultMark = none

/-- The state after a refused command (60_exceptions R156): the first refusal is kept, the result is `None`, one more command
is completed, and everything else is unchanged. -/
def State.refusedAs (s : State) (r : RefusalReason) : State :=
  { s with
    refusedMark := match s.refusedMark with
      | some first => some first
      | none => some r
    results := s.results ++ [.none]
    cmdIndex := s.cmdIndex + 1 }

/-- The drives of a trace: its events with every sampled value forgotten. -/
def drivesOf (es : List Event) : List Event :=
  es.map fun e => match e with
    | .sample _ => .sample false
    | .driveScl b => .driveScl b
    | .driveSda b => .driveSda b
    | .driveSdn b => .driveSdn b

/-- A run of at most `n` steps, which ends where the step does not answer a next state (00_scope R17). -/
def runSteps : Nat → State → State
  | 0, s => s
  | n + 1, s =>
    match step s with
    | .next s' => runSteps n s'
    | .fault _ => s
    | .refused _ => s

/-- A receiver that saw the whole trace from an idle bus stands where the block's lines stand, outside any frame. -/
abbrev State.WireAtRest (s : State) : Prop :=
  s.Idle ∧ (Receiver.idle.read s.trace).scl = true ∧ (Receiver.idle.read s.trace).sda = true ∧
  (Receiver.idle.read s.trace).openBits = none

/-- The page chip `i` was last told to select, as the wire shows it. -/
def State.toldPage (s : State) (i : Nat) : Option Byte := pageToldTo s.cfg i (Receiver.idle.read s.trace).frames

/-- The page cache agrees with the wire: the entry of every configured chip is Unknown or the page that chip was last told to
select (41_chip_driver R119). -/
abbrev State.Coherent (s : State) : Prop :=
  ∀ i < s.cfg.nchips, s.cacheAt (s.cfg.key (s.cfg.addr8 i)) = .unknown ∨
    ∃ page, s.cacheAt (s.cfg.key (s.cfg.addr8 i)) = .page page ∧ s.toldPage i = some page

/-- A command that by itself puts no frame at the offset of PAGESEL_REG on the bus, other than by SelectPage: what
assumption A2 of 41_chip_driver R119 asks of host traffic. -/
def leavesPageselAlone (p : Params) : Instr → Bool
  | .start | .stop | .tx _ | .rx _ => false
  | .selectPage _ _ => true
  | .writeReg _ reg _ => regOffset reg != regOffset p.pageselReg
  | .writeSeq _ reg _ => regOffset reg != regOffset p.pageselReg
  | .driverInit => true
  | .displayInit _ =>
    regOffset p.configReg != regOffset p.pageselReg && regOffset p.gccReg != regOffset p.pageselReg
  | .render _ =>
    regOffset p.pwmRegStart != regOffset p.pageselReg && regOffset p.onoffRegStart != regOffset p.pageselReg

end Sys2Proof.Machine
end

