-- ==== Sys2Proof/Certificates/Slice0/Obligations.lean ====
section
/-! DEFINITION. The statements for the provers. Each is about every parameter set, every state and every draw of the slave
oracle, unless it says otherwise. A statement about a next state gives the whole of it, so what it does not name is unchanged. -/

open Sys2Proof Sys2Proof.Machine

/-! ## Reset, steps and runs -/

/-- 10_state R35, 70_reset_and_hazards R175: the start state of a run, for every parameter set. Every row of R35 but the cache's
is the spec's own choice (decisions D1, D30, D31, D33); the last four lines are the model's (log 1, 2, 3). -/
def Obligations.ResetStateFields : Prop :=
  ∀ p : Params,
    (State.resetWith p).sclOut = true ∧ (State.resetWith p).sdaOut = true ∧ (State.resetWith p).sdnOut = .unset ∧
    (State.resetWith p).cache.length = p.busChipCount ∧ (∀ k, (State.resetWith p).cacheAt k = .unknown) ∧
    (∀ a, Memory.read (State.resetWith p).pwmBuf a = 0#8 ∧ Memory.read (State.resetWith p).onoffBuf a = 0#8) ∧
    (State.resetWith p).trace = [] ∧ (State.resetWith p).results = [] ∧ (State.resetWith p).inCritical = false ∧
    (State.resetWith p).faultMark = none ∧ (State.resetWith p).refusedMark = none ∧ (State.resetWith p).cmdIndex = 0 ∧
    (State.resetWith p).cfg = p ∧ (State.resetWith p).stream = [] ∧ (State.resetWith p).draws = [] ∧
    (State.resetWith p).drawCount = 0

/-- The invariant of command boundaries (`Inv`) holds at reset, for every well-formed parameter set and for the set of
`State.reset` (log 1). -/
def Obligations.ResetMeetsBoundaryInvariant : Prop :=
  (∀ p : Params, p.wellFormed = true → Inv (State.resetWith p)) ∧ Inv State.reset

/-- Every step keeps the invariant of command boundaries, from every state that meets it: the cache keeps BUS_CHIP_COUNT
entries (10_state R25), both scratch buffers are all zero (R26), no transaction is in progress (R30), SCL is released only on
an idle bus (40_transport R99), one result per completed command (R32), no fault (60_exceptions R155). The clauses of R26, R30 and
R99 are the spec's own derivations. -/
def Obligations.StepKeepsBoundaryInvariant : Prop :=
  ∀ s t : State, Inv s → step s = .next t → Inv t

/-- 00_scope R3, 30_encoding R78 and R82: under a well-formed parameter set, when the stream decodes to a command, the step is
that command's meaning on the state whose stream has moved past the command's bytes. -/
def Obligations.StepRunsDecodedCommand : Prop :=
  ∀ (s : State) (i : Instr) (rest : List Byte), s.cfg.wellFormed = true → decode s.cfg s.stream = .command i rest →
    step s = exec i { s with stream := rest }

/-- 60_exceptions R156 and R157: when the decoder refuses by name, the step completes a refused command on the state whose stream
has moved to where decoding resumes (the spec's decisions D2 and D33; log 9). -/
def Obligations.StepCompletesRefusedEncodings : Prop :=
  ∀ (s : State) (r : RefusalReason) (rest : List Byte), s.cfg.wellFormed = true → decode s.cfg s.stream = .rejected r rest →
    step s = .next (State.refusedAs { s with stream := rest } r)

/-- 60_exceptions R158: exactly the ill-formed parameter sets are refused as BAD_PARAMETERS, and they have no run (the spec's decision D12;
that the step refuses, and the types among the constraints, are the model's choice, log 7). -/
def Obligations.IllFormedParametersHaveNoRun : Prop :=
  ∀ s : State, (step s = .refused .badParameters ↔ s.cfg.wellFormed = false) ∧
    (s.cfg.wellFormed = false → ∀ n, runSteps n s = s)

/-- Every command of a nonempty stream completes: under a well-formed parameter set the step answers a next state and takes at
least one byte (30_encoding R82: "The decoder is total on any byte sequence"; the encoding is the spec's decision D2). -/
def Obligations.NonemptyStreamAlwaysSteps : Prop :=
  ∀ s : State, s.cfg.wellFormed = true → s.stream ≠ [] →
    ∃ t, step s = .next t ∧ t.stream.length < s.stream.length

/-- 00_scope R17: a run ends, and it ends when the host's command stream is exhausted; that the step then answers the refusal
`endOfStream` is the model's choice (log 2). -/
def Obligations.RunEndsWithStreamExhausted : Prop :=
  ∀ s : State, s.cfg.wellFormed = true →
    (runSteps s.stream.length s).stream = [] ∧ step (runSteps s.stream.length s) = .refused .endOfStream ∧
    (s.stream = [] → step s = .refused .endOfStream)

/-- 10_state R21: each completed command adds exactly one to `cmd_index`, and exactly one result (R32). The count is the
spec's decision D1. -/
def Obligations.StepCountsOneCommand : Prop :=
  ∀ s t : State, step s = .next t → t.cmdIndex = s.cmdIndex + 1 ∧ ∃ r, t.results = s.results ++ [r]

/-- 00_scope R7: no step changes a parameter. -/
def Obligations.ParametersNeverChange : Prop :=
  ∀ s t : State, step s = .next t → t.cfg = s.cfg

/-- 10_state R27, 20_memory R52: the trace only grows at its end (decision D1), and the draws are used in order, one for each
sample (log 3). -/
def Obligations.TraceOnlyGrows : Prop :=
  ∀ s t : State, step s = .next t →
    ∃ es, t.trace = s.trace ++ es ∧
      t.drawCount = s.drawCount + (es.filter fun e => decide (e = .sample true ∨ e = .sample false)).length ∧
      t.draws = s.draws.drop (t.drawCount - s.drawCount)

/-- 10_state R31: the marks start as None, the first mark is kept, and no command clears one; and a command issued after a mark is
set still executes under its own rule: whatever the marks, it leaves the same state but for the marks (decision D33). -/
def Obligations.MarksAreStickyAndIgnored : Prop :=
  (∀ p, (State.resetWith p).faultMark = none ∧ (State.resetWith p).refusedMark = none) ∧
  (∀ s t : State, step s = .next t →
    (∀ r, s.refusedMark = some r → t.refusedMark = some r) ∧ (∀ r, s.faultMark = some r → t.faultMark = some r)) ∧
  (∀ (i : Instr) (s t : State) (m : Option RefusalReason) (n : Option FaultReason), exec i s = .next t →
    ∃ m' n', exec i { s with refusedMark := m, faultMark := n } = .next { t with refusedMark := m', faultMark := n' })

/-- 10_state R24: `sdn_out` is Unset at reset, DISPLAY_INIT writes 1, and no other command writes it. -/
def Obligations.OnlyDisplayInitDrivesSdn : Prop :=
  (∀ p, (State.resetWith p).sdnOut = .unset) ∧
  ∀ (i : Instr) (s t : State), exec i s = .next t →
    t.sdnOut = match i with
      | .displayInit _ => .driven true
      | .start | .stop | .tx _ | .rx _ | .selectPage _ _ | .writeReg _ _ _ | .writeSeq _ _ _ | .driverInit | .render _ =>
        s.sdnOut

/-- 10_state R25: "Only the chip driver's SELECT_PAGE path, DRIVER_INIT and DISPLAY_INIT write it": a command of the transport, a
write to a global register and a rejected burst leave every entry, and an entry that any other command changes names a page
that command selects, or is Unknown after an initialisation. -/
def Obligations.CacheChangesOnlyBySelectOrInit : Prop :=
  ∀ (i : Instr) (s t : State) (k : Nat), Inv s → exec i s = .next t → t.cacheAt k ≠ s.cacheAt k →
    match i with
    | .start | .stop | .tx _ | .rx _ => False
    | .selectPage addr page => k = s.cfg.key addr ∧ t.cacheAt k = .page page
    | .writeReg addr reg _ => s.cfg.isGlobal reg = false ∧ k = s.cfg.key addr ∧ t.cacheAt k = .page (regPage reg)
    | .writeSeq addr reg _ => s.cfg.isGlobal reg = false ∧ k = s.cfg.key addr ∧ t.cacheAt k = .page (regPage reg)
    | .driverInit => t.cacheAt k = .unknown
    | .displayInit _ => t.cacheAt k = .unknown ∨ t.cacheAt k = .page (regPage s.cfg.gccReg)
    | .render _ => t.cacheAt k = .page (regPage s.cfg.onoffRegStart)

/-! ## Transport -/

/-- 40_transport R91: START drives SDA 1, SCL 1, SDA 0, SCL 0, from whatever the lines are, with the result None, and changes
nothing else. Its encoding is the opcode 0x01 alone. -/
def Obligations.StartDrivesTheStartSequence : Prop :=
  (∀ s : State, exec .start s = .next { s with
      sclOut := false
      sdaOut := false
      trace := s.trace ++ [.driveSda true, .driveScl true, .driveSda false, .driveScl false]
      results := s.results ++ [.none]
      cmdIndex := s.cmdIndex + 1 }) ∧
  ∀ (p : Params) (rest : List Byte), decode p (0x01#8 :: rest) = .command .start rest

/-- 40_transport R93: STOP drives SDA 0, SCL 1, SDA 1, from whatever the lines are, with the result None, leaves the bus idle and
changes nothing else: it uses no draw. Its encoding is the opcode 0x02 alone. -/
def Obligations.StopDrivesTheStopSequence : Prop :=
  (∀ s : State, exec .stop s = .next { s with
      sclOut := true
      sdaOut := true
      trace := s.trace ++ [.driveSda false, .driveScl true, .driveSda true]
      results := s.results ++ [.none]
      cmdIndex := s.cmdIndex + 1 }) ∧
  ∀ (p : Params) (rest : List Byte), decode p (0x02#8 :: rest) = .command .stop rest

/-- 40_transport R94: TX sends the eight bits of its byte most significant first, each set before its clock pulse, releases SDA,
samples once during the ninth clock and answers true iff the sampled line was low; one draw is used; SCL ends low and SDA
released. The sample point and the SDA after the ninth clock are the spec's decisions D6 and D7. -/
def Obligations.TransmitShiftsByteAndSamplesAck : Prop :=
  ∀ (b : Byte) (s : State), exec (.tx b) s = .next { s with
    sclOut := false
    sdaOut := true
    trace := s.trace ++ txEvents b (s.drawAt 0)
    draws := s.draws.drop 1
    drawCount := s.drawCount + 1
    results := s.results ++ [.bool (s.drawAt 0 == false)]
    cmdIndex := s.cmdIndex + 1 }

/-- 40_transport R96: RX releases SDA, samples eight bits most significant first (the first draw in bit 7), asserts the ack by
driving low or withholds it by releasing (decision D7), clocks it once and releases SDA. An operand byte other than 0x00 and
0x01 is refused (30_encoding R84 (a)); that decoding resumes right after it is the model's choice (log 9). -/
def Obligations.ReceiveBuildsByteMsbFirst : Prop :=
  (∀ (sendAck : Bool) (s : State), exec (.rx sendAck) s = .next { s with
      sclOut := false
      sdaOut := true
      trace := s.trace ++ rxEvents sendAck s.drawAt
      draws := s.draws.drop 8
      drawCount := s.drawCount + 8
      results := s.results ++ [.byte (byteOfBits s.drawAt)]
      cmdIndex := s.cmdIndex + 1 }) ∧
  ∀ (p : Params) (b : Byte) (rest : List Byte), b ≠ 0x00#8 → b ≠ 0x01#8 →
    decode p (0x04#8 :: b :: rest) = .rejected .badAckOperand rest

/-- The conditions that the four transport sequences make on the wire (the corner cases of 40_transport R91, R93, R94 and R96, and
R98), with the receiver's reading of log 13 (PRESUMED). START makes one START condition, from an idle bus and from a low SCL.
STOP makes one STOP condition from a low SCL, and a START condition first from an idle bus. TX makes none from a low SCL, and
from an idle bus a START condition exactly when bit 7 is 0. RX makes none from either. -/
def Obligations.TransportConditionsOnTheWire : Prop :=
  ∀ (r : Receiver) (b : Byte) (v sendAck : Bool) (d : Nat → Bool),
    ((r.scl = true → r.sda = true) →
      (r.read startEvents).conditions = r.conditions ++ [.startCondition] ∧
      (r.read (rxEvents sendAck d)).conditions = r.conditions) ∧
    (r.scl = false →
      (r.read stopEvents).conditions = r.conditions ++ [.stopCondition] ∧
      (r.read (txEvents b v)).conditions = r.conditions) ∧
    (r.scl = true → r.sda = true →
      (r.read stopEvents).conditions = r.conditions ++ [.startCondition, .stopCondition] ∧
      (r.read (txEvents b v)).conditions = r.conditions ++ (if b.getLsbD 7 then [] else [.startCondition]))

/-! ## Chip driver -/

/-- 41_chip_driver R113: SELECT_PAGE on a cache hit does nothing but answer true; on a miss it sends the unlock frame and the
page-select frame, updates the cache whatever the acknowledgements, and answers their AND (decision D14). It is refused for an
odd address, an address that is not configured, and the global marker as a page (30_encoding R84 (b), (c)). -/
def Obligations.SelectPageHitOrExchange : Prop :=
  ∀ (s : State) (addr page : Byte),
    (addr.getLsbD 0 = true → exec (.selectPage addr page) s = .next (s.refusedAs .oddAddress)) ∧
    (addr.getLsbD 0 = false → (∀ i < s.cfg.nchips, s.cfg.addr8 i ≠ addr) →
      exec (.selectPage addr page) s = .next (s.refusedAs .unconfiguredAddress)) ∧
    ∀ i < s.cfg.nchips, s.cfg.addr8 i = addr →
      (page = s.cfg.globalMarker → exec (.selectPage addr page) s = .next (s.refusedAs .globalPage)) ∧
      (page ≠ s.cfg.globalMarker →
        (s.cacheAt (s.cfg.key addr) = .page page →
          exec (.selectPage addr page) s =
            .next { s with results := s.results ++ [.bool true], cmdIndex := s.cmdIndex + 1 }) ∧
        (s.cacheAt (s.cfg.key addr) ≠ .page page →
          exec (.selectPage addr page) s = .next { ranFrames
              [[addr, regOffset s.cfg.unlockReg, s.cfg.unlockMagic], [addr, regOffset s.cfg.pageselReg, page]] s with
            cache := s.cache.set (s.cfg.key addr) (.page page) }))

/-- 41_chip_driver R115, R116: WRITE_REG sends one frame to a global register and touches no cache entry; to a paged register it first
selects the page, so one frame on a hit and three on a miss; the register write is always issued, and the answer is the AND of
every acknowledgement (decision D15). It is refused for an odd address or one that is not configured. -/
def Obligations.WriteRegSelectsThenWrites : Prop :=
  ∀ (s : State) (addr : Byte) (reg : RegId) (value : Byte),
    (addr.getLsbD 0 = true → exec (.writeReg addr reg value) s = .next (s.refusedAs .oddAddress)) ∧
    (addr.getLsbD 0 = false → (∀ i < s.cfg.nchips, s.cfg.addr8 i ≠ addr) →
      exec (.writeReg addr reg value) s = .next (s.refusedAs .unconfiguredAddress)) ∧
    ∀ i < s.cfg.nchips, s.cfg.addr8 i = addr →
      (regPage reg = s.cfg.globalMarker →
        exec (.writeReg addr reg value) s = .next (ranFrames [[addr, regOffset reg, value]] s)) ∧
      (regPage reg ≠ s.cfg.globalMarker → s.cacheAt (s.cfg.key addr) = .page (regPage reg) →
        exec (.writeReg addr reg value) s = .next (ranFrames [[addr, regOffset reg, value]] s)) ∧
      (regPage reg ≠ s.cfg.globalMarker → s.cacheAt (s.cfg.key addr) ≠ .page (regPage reg) →
        exec (.writeReg addr reg value) s = .next { ranFrames
            [[addr, regOffset s.cfg.unlockReg, s.cfg.unlockMagic], [addr, regOffset s.cfg.pageselReg, regPage reg],
             [addr, regOffset reg, value]] s with
          cache := s.cache.set (s.cfg.key addr) (.page (regPage reg)) })

/-- 41_chip_driver R117, R118, 60_exceptions R160: WRITE_SEQ to a global register answers false with no bus activity and no cache
change; to a paged register it selects the page and sends one burst frame with every data byte in order, and answers the AND of
every acknowledgement (decision D17). The address checks come before the global test. -/
def Obligations.WriteSeqRejectsGlobalOrBursts : Prop :=
  ∀ (s : State) (addr : Byte) (reg : RegId) (data : List Byte),
    (addr.getLsbD 0 = true → exec (.writeSeq addr reg data) s = .next (s.refusedAs .oddAddress)) ∧
    (addr.getLsbD 0 = false → (∀ i < s.cfg.nchips, s.cfg.addr8 i ≠ addr) →
      exec (.writeSeq addr reg data) s = .next (s.refusedAs .unconfiguredAddress)) ∧
    ∀ i < s.cfg.nchips, s.cfg.addr8 i = addr →
      (regPage reg = s.cfg.globalMarker →
        exec (.writeSeq addr reg data) s =
          .next { s with results := s.results ++ [.bool false], cmdIndex := s.cmdIndex + 1 }) ∧
      (regPage reg ≠ s.cfg.globalMarker → s.cacheAt (s.cfg.key addr) = .page (regPage reg) →
        exec (.writeSeq addr reg data) s = .next (ranFrames [addr :: regOffset reg :: data] s)) ∧
      (regPage reg ≠ s.cfg.globalMarker → s.cacheAt (s.cfg.key addr) ≠ .page (regPage reg) →
        exec (.writeSeq addr reg data) s = .next { ranFrames
            [[addr, regOffset s.cfg.unlockReg, s.cfg.unlockMagic], [addr, regOffset s.cfg.pageselReg, regPage reg],
             addr :: regOffset reg :: data] s with
          cache := s.cache.set (s.cfg.key addr) (.page (regPage reg)) })

/-- 41_chip_driver R121: DRIVER_INIT sets every cache entry to Unknown and does nothing else (the spec's decision D42). -/
def Obligations.DriverInitForgetsEveryPage : Prop :=
  ∀ s : State, exec .driverInit s = .next { s with
    cache := List.replicate s.cfg.busChipCount .unknown
    results := s.results ++ [.none]
    cmdIndex := s.cmdIndex + 1 }

/-- 41_chip_driver R123, 70_reset_and_hazards R179: DISPLAY_INIT drives the shutdown line high, resets the cache, and for every chip in
ascending order writes the config register and then the GCC register, each after the page select it needs; the answer is the AND
of every acknowledgement and nothing aborts (decision D20). Afterwards the entry of every chip is the GCC page. -/
def Obligations.DisplayInitConfiguresEveryChip : Prop :=
  ∀ (s : State) (gain : Byte), s.cfg.wellFormed = true →
    exec (.displayInit gain) s = .next { ranFrames ((List.range s.cfg.nchips).flatMap (initFrames s.cfg gain))
        { s with sdnOut := .driven true, trace := s.trace ++ [.driveSdn true] } with
      cache := cacheSelecting s.cfg (regPage s.cfg.gccReg) (List.replicate s.cfg.busChipCount .unknown) }

/-- 41_chip_driver R124, with R74: the events that DISPLAY_INIT appends are one DriveSDN(1) and then the register-write frames of
every chip in turn, 4 frames of three bytes per chip when the config and GCC registers share a page and 6 otherwise, each of
91 events. (The spec's own derivation.) -/
def Obligations.DisplayInitTransactionCount : Prop :=
  ∀ (s t : State) (gain : Byte) (fs : List Frame), s.cfg.wellFormed = true → exec (.displayInit gain) s = .next t →
    fs = (List.range s.cfg.nchips).flatMap (initFrames s.cfg gain) →
    t.trace = s.trace ++ [.driveSdn true] ++ framesEvents fs s.drawAt ∧
    fs.length = s.cfg.nchips * (if regPage s.cfg.configReg = regPage s.cfg.gccReg then 4 else 6) ∧
    (∀ f ∈ fs, f.length = 3) ∧
    t.trace.length = s.trace.length + 1 + 91 * fs.length

/-- 41_chip_driver R112, 20_memory R50: BusWrite is one transaction: START, the address byte with the write bit, every byte in order,
STOP; it answers the AND of every acknowledgement, whatever they are, appends `4 + 28*(1 + |bytes|) + 3` events, and leaves the bus
idle. From START to STOP `in_critical` is true, and false afterwards. The event count is the spec's own derivation from R74. -/
def Obligations.BusWriteIsOneCriticalTransaction : Prop :=
  ∀ (addr : Byte) (bytes : List Byte) (s : State),
    busWrite addr bytes s =
      (allAcked (1 + bytes.length) s.drawAt,
        { s with
          sclOut := true
          sdaOut := true
          inCritical := false
          trace := s.trace ++ startEvents ++ bytesEvents ((addr ||| Config.writeBit) :: bytes) s.drawAt ++ stopEvents
          draws := s.draws.drop (1 + bytes.length)
          drawCount := s.drawCount + (1 + bytes.length) }) ∧
    (startEvents ++ bytesEvents ((addr ||| Config.writeBit) :: bytes) s.drawAt ++ stopEvents).length =
      4 + 28 * (1 + bytes.length) + 3 ∧
    (start (enterCritical s)).inCritical = true ∧
    (∀ n, (txAll (bytes.take n) true (tx (addr ||| Config.writeBit) (start (enterCritical s))).2).2.inCritical = true) ∧
    (transaction addr bytes (enterCritical s)).2.inCritical = true

/-- 10_state R33: a Bool result is true exactly when every acknowledgement the command sampled was an ack and the command was not
rejected (a rejection is a WRITE_SEQ to a global register); no command reads an earlier result; and no result is stored anywhere
but in `results`: under any other draws, so with any other acknowledgements, the command leaves the same state but for `results`,
the samples in `trace`, and the draws themselves. -/
def Obligations.BoolResultMeansAckedAndNotRejected : Prop :=
  ∀ (i : Instr) (s t : State), exec i s = .next t →
    (s.cfg.wellFormed = true → ∀ b, t.results = s.results ++ [.bool b] →
      (b = true ↔ Event.sample true ∉ t.trace.drop s.trace.length ∧
        ∀ addr reg data, i = .writeSeq addr reg data → s.cfg.isGlobal reg = false)) ∧
    (∃ r, t.results = s.results ++ [r] ∧
      ∀ rs, exec i { s with results := rs } = .next { t with results := rs ++ [r] }) ∧
    ∀ (ds : List Bool) (n : Nat), ∃ t', exec i { s with draws := ds, drawCount := n } = .next t' ∧
      { t' with results := t.results, trace := t.trace, draws := t.draws, drawCount := t.drawCount } = t ∧
      drivesOf t'.trace = drivesOf t.trace

/-- 60_exceptions R152: a WRITE_SEQ to a global register of a configured chip answers false with no event and no cache change; and under
a well-formed parameter set no other command answers false without an event. -/
def Obligations.GlobalBurstIsTheOnlyRejection : Prop :=
  (∀ (s : State) (addr : Byte) (reg : RegId) (data : List Byte), (∃ i < s.cfg.nchips, s.cfg.addr8 i = addr) →
    regPage reg = s.cfg.globalMarker →
    exec (.writeSeq addr reg data) s =
      .next { s with results := s.results ++ [.bool false], cmdIndex := s.cmdIndex + 1 }) ∧
  ∀ (i : Instr) (s t : State), s.cfg.wellFormed = true → exec i s = .next t → t.results = s.results ++ [.bool false] →
    t.trace = s.trace → ∃ addr reg data, i = .writeSeq addr reg data ∧ regPage reg = s.cfg.globalMarker

/-- 60_exceptions R151: acknowledgements change neither what is sent nor what is remembered: under any two sequences of draws a command
leaves the same drives, page cache, lines, shutdown line, buffers, marks and counters; only the samples and the results
differ. (The draws are log 3.) -/
def Obligations.AcknowledgementsNeverChangeTraffic : Prop :=
  ∀ (i : Instr) (s t : State) (ds : List Bool) (n : Nat), exec i s = .next t →
    ∃ t', exec i { s with draws := ds, drawCount := n } = .next t' ∧
      drivesOf (t'.trace.drop s.trace.length) = drivesOf (t.trace.drop s.trace.length) ∧
      t'.cache = t.cache ∧ t'.sclOut = t.sclOut ∧ t'.sdaOut = t.sdaOut ∧ t'.sdnOut = t.sdnOut ∧
      t'.pwmBuf = t.pwmBuf ∧ t'.onoffBuf = t.onoffBuf ∧ t'.refusedMark = t.refusedMark ∧ t'.cmdIndex = t.cmdIndex ∧
      t'.results.length = t.results.length

/-- 10_state R29: from every state, STOP, a SELECT_PAGE that misses, a WRITE_REG, a WRITE_SEQ to a paged register, and under a
well-formed parameter set DISPLAY_INIT and RENDER, leave the bus idle; a SELECT_PAGE that hits, a WRITE_SEQ to a global register,
a refused command and DRIVER_INIT leave both lines as they are, so an idle bus idle; START, TX and RX leave SCL low. (The
spec's own derivation; R29 says idle of a hit too, which drives no line and so leaves a bus that a raw START made busy, log 20.) -/
def Obligations.DriverCommandsLeaveBusIdle : Prop :=
  ∀ (i : Instr) (s t : State), exec i s = .next t →
    (operandCheck s.cfg i ≠ none → t.sclOut = s.sclOut ∧ t.sdaOut = s.sdaOut) ∧
    (operandCheck s.cfg i = none →
      match i with
      | .start | .tx _ | .rx _ => t.sclOut = false
      | .stop => t.Idle
      | .selectPage addr page =>
        (s.cacheAt (s.cfg.key addr) ≠ .page page → t.Idle) ∧
        (s.cacheAt (s.cfg.key addr) = .page page → t.sclOut = s.sclOut ∧ t.sdaOut = s.sdaOut)
      | .writeReg _ _ _ => t.Idle
      | .writeSeq _ reg _ =>
        (regPage reg ≠ s.cfg.globalMarker → t.Idle) ∧
        (regPage reg = s.cfg.globalMarker → t.sclOut = s.sclOut ∧ t.sdaOut = s.sdaOut)
      | .driverInit => t.sclOut = s.sclOut ∧ t.sdaOut = s.sdaOut
      | .displayInit _ | .render _ => (s.cfg.wellFormed = true → t.Idle) ∧ (s.Idle → t.Idle))

/-- 41_chip_driver R119: the cache-coherence property, with the pages the chips were told to select read off the wire. From any state
in which the cache agrees with the wire at an idle bus, a command that puts no frame at the offset of PAGESEL_REG on the bus
itself (assumption A2) leaves it so. The reading of the wire is PRESUMED (log 13). -/
def Obligations.PageCacheAgreesWithWire : Prop :=
  ∀ (i : Instr) (s t : State), Inv s → s.WireAtRest → s.Coherent → leavesPageselAlone s.cfg i = true →
    exec i s = .next t → t.WireAtRest ∧ t.Coherent

/-! ## Addresses, keys and register fields -/

/-- 30_encoding R62, R63: an address byte carries `0x50 | CHIP_CS[i]` in bits 7:1 and 0 in bit 0, the write bit adds nothing, and
chip-select bits 6 and 4 do not change the address. (R63's write bit is the spec's decision D10, log 19; the last clause its own derivation.) -/
def Obligations.AddressByteFields : Prop :=
  ∀ (p : Params) (i : Nat), p.chipCs.getD i 0#8 < 0x80#8 →
    (p.addr8 i).extractLsb' 1 7 = (0x50#8 ||| p.chipCs.getD i 0#8).extractLsb' 0 7 ∧ (p.addr8 i).getLsbD 0 = false ∧
    p.addr8 i ||| Config.writeBit = p.addr8 i ∧
    ∀ q : Params, q.chipCs = p.chipCs.map (fun cs => cs &&& 0xAF#8) → q.addr8 i = p.addr8 i

/-- 41_chip_driver R111, 00_scope R9 item 4: under a well-formed parameter set every configured chip has a key of its own, below
BUS_CHIP_COUNT: the 7-bit address modulo the bus chip-count (the spec's decisions D11, D12, D23). -/
def Obligations.EveryChipHasItsOwnKey : Prop :=
  ∀ p : Params, p.wellFormed = true → ∀ i < p.nchips, ∀ j < p.nchips,
    p.key (p.addr8 i) = (p.addr8 i).toNat / 2 % p.busChipCount ∧ p.key (p.addr8 i) < p.busChipCount ∧
    (p.key (p.addr8 i) = p.key (p.addr8 j) → i = j)

/-- 30_encoding R68: the config byte of chip `i` holds the sync role in bits 7:6 (chip 0 the master, any other a slave), 0 in bits 5:1
and RUN_VALUE in bit 0 (the spec's decision D19). -/
def Obligations.ConfigByteFields : Prop :=
  ∀ (p : Params) (i : Nat),
    (p.cfgByte i).extractLsb' 6 2 = (if i = 0 then p.syncMasterCode else p.syncSlaveCode) ∧
    (p.cfgByte i).extractLsb' 1 5 = 0#5 ∧ (p.cfgByte i).extractLsb' 0 1 = p.runValue

/-! ## Serializer -/

/-- 42_serializer R132, R133: every pixel of the grid lies in exactly one chip region, at a native position inside the chip, and every
region holds a pixel. (The spec's own derivation from R131.) -/
def Obligations.RegionsPartitionGrid : Prop :=
  ∀ p : Params, p.wellFormed = true →
    (∀ x < p.width, ∀ y < p.height, ∃ i < p.nchips,
      p.inRegion i x y ∧ x - p.firstCol i < p.chipWidth ∧ y - p.firstRow i < p.chipHeight ∧
      ∀ j < p.nchips, p.inRegion j x y → j = i) ∧
    ∀ i < p.nchips, p.inRegion i (p.firstCol i) (p.firstRow i) ∧ p.lastCol i < p.width ∧ p.lastRow i < p.height

/-- 42_serializer R134, R135: in the PWM buffer of a chip, slot `k` of every pixel of its region holds byte `k` of the intensity, the
least significant first (FourByte), or the intensity saturated to 255 (ClampReplicate), whatever the gate; every other byte is
zero (the spec's decisions D24, D25, D27). -/
def Obligations.PwmBufferHoldsIntensities : Prop :=
  ∀ (p : Params) (d : Display) (i : Nat), p.wellFormed = true → i < p.nchips → d.length = p.pixelCount →
    (∀ cx cy, p.firstCol i + cx ≤ p.lastCol i → p.firstRow i + cy ≤ p.lastRow i → ∀ k < 4,
      ∃ px, d[(p.firstCol i + cx) * p.height + (p.firstRow i + cy)]? = some px ∧
        (p.pwmScheme = .fourByte →
          Memory.read (serializePwm p d i) (p.pwmSlot cx cy k) = (px.intensity >>> (8 * k)).setWidth 8) ∧
        (p.pwmScheme = .clampReplicate →
          (Memory.read (serializePwm p d i) (p.pwmSlot cx cy k)).toNat = min px.intensity.toNat 255)) ∧
    ∀ a, (∀ cx cy, p.firstCol i + cx ≤ p.lastCol i → p.firstRow i + cy ≤ p.lastRow i → ∀ k < 4, a ≠ p.pwmSlot cx cy k) →
      Memory.read (serializePwm p d i) a = 0#8

/-- 42_serializer R137, R138: bit `b` of byte `a` of a chip's on/off buffer is 1 exactly when some pixel of its region with `gate =
true` has `b` in its pair and `a` as its byte or the byte ONOFF_ROW_STRIDE further on; so a position whose pixels are all
ungated is never marked lit, whatever the intensities (the spec's decisions D26, D27). -/
def Obligations.OnoffBufferMarksGatedPixels : Prop :=
  ∀ (p : Params) (d : Display) (i a b : Nat), i < p.nchips → b < 8 →
    ((Memory.read (serializeOnoff p d i) a).getLsbD b = true ↔
      ∃ cx cy px, p.firstCol i + cx ≤ p.lastCol i ∧ p.firstRow i + cy ≤ p.lastRow i ∧
        d[(p.firstCol i + cx) * p.height + (p.firstRow i + cy)]? = some px ∧ px.gate = true ∧
        (a = p.onoffAt cx cy ∨ a = p.onoffAt cx cy + p.onoffRowStride) ∧
        (b = 2 * p.onoffPairAt cx cy ∨ b = 2 * p.onoffPairAt cx cy + 1))

/-- 42_serializer R136: the order of a region's pixels does not change either buffer. (The spec's own derivation.) -/
def Obligations.PixelOrderDoesNotMatter : Prop :=
  ∀ (p : Params) (d : Display) (i : Nat) (order : List (Nat × Nat)), p.wellFormed = true → i < p.nchips →
    order.Perm (p.covered i) →
    order.foldl (buildAt (pwmPixel p) p d i) [] = serializePwm p d i ∧
    order.foldl (buildAt (onoffPixel p) p d i) [] = serializeOnoff p d i

/-- 42_serializer R141, R140: RENDER sends, for every chip in ascending order, the PWM burst and then the on/off burst of its
serialization, each after the page select that the cache calls for; the answer is the AND of every acknowledgement and nothing
aborts (decisions D28, D29, D30); both buffers are all zero afterwards, and the entry of every chip is the on/off page. A Display
record with a reserved flag bit set is refused (30_encoding R84 (d)); that decoding resumes after the whole record is the
model's choice (log 9). -/
def Obligations.RenderWritesEveryChip : Prop :=
  (∀ (s : State) (d : Display), s.cfg.wellFormed = true → s.cache.length = s.cfg.busChipCount →
    exec (.render d) s = .next { ranFrames
        ((List.range s.cfg.nchips).flatMap fun i => renderFrames s.cfg d (s.cacheAt (s.cfg.key (s.cfg.addr8 i))) i) s with
      pwmBuf := []
      onoffBuf := []
      cache := cacheSelecting s.cfg (regPage s.cfg.onoffRegStart) s.cache }) ∧
  ∀ (p : Params) (rest : List Byte) (n : Nat) (f : Byte), 5 * p.pixelCount ≤ rest.length → n < p.pixelCount →
    rest[5 * n + 4]? = some f → f.extractLsb' 3 5 ≠ 0#5 →
    decode p (0x0A#8 :: rest) = .rejected .reservedPixelFlags (rest.drop (5 * p.pixelCount))

/-- 42_serializer R143, with R74: the events that RENDER appends are the frames of every chip in turn. Chip by chip, whatever the
cache: two bursts, of `2 + PWM_LEN` and `2 + ONOFF_LEN` bytes, and before each the two frames of a page select unless the cache
calls for none. That is 6 transactions for a chip on different pages, 4 on one page from an entry that is not that page and 2 from
one that is, as R143 says; and 4 on different pages where the entry is the PWM page, for which R143 says 6 (log 20). (The spec's own
derivation.) -/
def Obligations.RenderTransactionCount : Prop :=
  ∀ (s t : State) (d : Display), s.cfg.wellFormed = true → s.cache.length = s.cfg.busChipCount → exec (.render d) s = .next t →
    ∀ (pp po : Byte) (entry : Nat → CacheEntry) (frames : Nat → List Frame),
      pp = regPage s.cfg.pwmRegStart → po = regPage s.cfg.onoffRegStart →
      (∀ i, entry i = s.cacheAt (s.cfg.key (s.cfg.addr8 i))) → (∀ i, frames i = renderFrames s.cfg d (entry i) i) →
      t.trace = s.trace ++ framesEvents ((List.range s.cfg.nchips).flatMap frames) s.drawAt ∧
      t.trace.length = s.trace.length + ((List.range s.cfg.nchips).map fun i =>
        (if entry i = .page pp then 0 else 2 * 91) + (63 + 28 * s.cfg.pwmLen) +
        (if pp = po then 0 else 2 * 91) + (63 + 28 * s.cfg.onoffLen)).sum ∧
      ∀ i < s.cfg.nchips,
        (pp ≠ po → entry i ≠ .page pp → (frames i).length = 6) ∧ (pp ≠ po → entry i = .page pp → (frames i).length = 4) ∧
        (pp = po → entry i ≠ .page pp → (frames i).length = 4) ∧ (pp = po → entry i = .page pp → (frames i).length = 2) ∧
        (frames i).map List.length =
          (if entry i = .page pp then [] else [3, 3]) ++ [2 + s.cfg.pwmLen] ++
          (if pp = po then [] else [3, 3]) ++ [2 + s.cfg.onoffLen]

/-- 42_serializer R130: the serializer reads `intensity` and `gate` only: Displays that differ in `shorted` and `open` alone give the
same outcome from every state, and the same buffers (the spec's decision D27). -/
def Obligations.DiagnosticFlagsAreIgnored : Prop :=
  ∀ d d' : Display, d.map (fun px => (px.intensity, px.gate)) = d'.map (fun px => (px.intensity, px.gate)) →
    (∀ s : State, exec (.render d) s = exec (.render d') s) ∧
    ∀ (p : Params) (i : Nat), serializePwm p d i = serializePwm p d' i ∧ serializeOnoff p d i = serializeOnoff p d' i

/-- 00_scope R9 items 5 and 6, 60_exceptions R158: RENDER stops with a fault exactly when a native position names a scratch-buffer byte
that does not exist, which no well-formed parameter set does (the fault is the model's choice, log 6). -/
def Obligations.RenderFaultsOnMissingBufferByte : Prop :=
  ∀ (s : State) (d : Display),
    (exec (.render d) s = .fault .noSuchBufferByte ↔
      ∃ cx cy, cx < s.cfg.chipWidth ∧ cy < s.cfg.chipHeight ∧
        ((∃ k < 4, s.cfg.pwmLen ≤ s.cfg.pwmSlot cx cy k) ∨
          s.cfg.onoffLen ≤ s.cfg.onoffAt cx cy + s.cfg.onoffRowStride)) ∧
    (s.cfg.wellFormed = true → ∃ t, exec (.render d) s = .next t)

/-! ## Marks -/

/-- 60_exceptions R156: a refusal keeps the first reason, gives the result None, completes the command, and changes nothing else
(the spec's decision D33). -/
def Obligations.RefusalChangesOnlyBookkeeping : Prop :=
  ∀ (r : RefusalReason) (s : State), refuse r s = s.refusedAs r

/-- 60_exceptions R155, R159: a fault keeps the first reason and ends the command with the result None; no command of the single-host
model raises one; another agent that is stepped inside a critical section raises BUS_CONTENTION, and outside one does what the
parameter OTHER_MASTER_SEMANTICS says, whatever it is (decision D35; the agent is an extension that no step of the block calls,
log 12; that a fault leaves `in_critical`, the lines, the cache and the buffers as they stand is the
model's choice, log 22). -/
def Obligations.OnlyAnotherAgentRaisesFault : Prop :=
  (∀ (r : FaultReason) (s : State), s.faultMark = none →
    raiseFault r s = { s with faultMark := some r, results := s.results ++ [.none], cmdIndex := s.cmdIndex + 1 }) ∧
  (∀ (r q : FaultReason) (s : State), s.faultMark = some q → (raiseFault r s).faultMark = some q) ∧
  (∀ s t : State, step s = .next t → t.faultMark = s.faultMark) ∧
  ∀ (otherMasterSemantics : State → Host.Outcome State Fault Refusal) (s : State),
    (s.inCritical = true →
      otherAgentStep otherMasterSemantics s = .next (raiseFault .busContention s) ∧
      (raiseFault .busContention s).faultMark.isSome = true) ∧
    (s.inCritical = false → otherAgentStep otherMasterSemantics s = otherMasterSemantics s)

/-! ## Encoding -/

/-- 30_encoding R78 to R81: decoding an encoded command gives it back with the bytes after it, for every command that has a spelling
and every value of its operands (the spec's decision D2). -/
def Obligations.DecodeGivesEncodedCommand : Prop :=
  ∀ (p : Params) (i : Instr) (rest : List Byte), i.encodable p = true → decode p (encode i ++ rest) = .command i rest

/-- 30_encoding R82: each byte sequence that decodes to a command is that command's encoding and the bytes after it: no bit of an
encoding is ignored (the spec's decision D2). -/
def Obligations.DecodedBytesAreTheEncoding : Prop :=
  ∀ (p : Params) (bytes : List Byte) (i : Instr) (rest : List Byte), decode p bytes = .command i rest →
    bytes = encode i ++ rest ∧ i.encodable p = true

/-- 30_encoding R83: an opcode byte 0x00 or 0x0B..0xFF is illegal and decoding resumes at the next byte; a command cut short anywhere
is truncated and decoding stops (the spec's decision D2). -/
def Obligations.IllegalAndTruncatedEncodings : Prop :=
  (∀ (p : Params) (op : Byte) (rest : List Byte), (op = 0x00#8 ∨ 0x0B#8 ≤ op) →
    decode p (op :: rest) = .rejected .illegalOpcode rest) ∧
  ∀ (p : Params) (i : Instr) (n : Nat), i.encodable p = true → 0 < n → n < (encode i).length →
    decode p ((encode i).take n) = .rejected .truncated []

/-- 95_test_vectors E1 to E7 and 30_encoding R79, R80: a few words of the spec decode to the commands they stand for (decision D2). -/
def Obligations.SpecWordsDecode : Prop :=
  decode (Params.tp 2 1 2 1) [0x03#8, 0xA0#8] = .command (.tx 0xA0#8) [] ∧
  decode (Params.tp 2 1 2 1) [0x07#8, 0xA0#8, 0x01#8, 0x00#8, 0x00#8, 0x03#8, 0x11#8, 0x22#8, 0x33#8] =
    .command (.writeSeq 0xA0#8 0x0100#16 [0x11#8, 0x22#8, 0x33#8]) [] ∧
  decode (Params.tp 2 1 2 1) [0x0A#8, 0x11#8, 0x22#8, 0x33#8, 0x44#8, 0x01#8, 0x00#8, 0x00#8, 0x00#8, 0xFF#8, 0x00#8] =
    .command (.render [⟨0x11223344#32, true, false, false⟩, ⟨0x000000FF#32, false, false, false⟩]) [] ∧
  decode (Params.tp 2 1 2 1) [0x06#8, 0xA0#8, 0x03#8, 0x01#8, 0x80#8] = .command (.writeReg 0xA0#8 0x0301#16 0x80#8) []

/-- 30_encoding R86: the expansions of the pseudo-instructions; under a well-formed parameter set, for a configured chip, `unlock` and
`page_write` send one frame and do not touch the cache, so a `page_write` leaves it stale (70_reset_and_hazards R184; D2). -/
def Obligations.PseudoWritesBypassCache : Prop :=
  ∀ (s : State) (a page off v : Byte),
    expandPseudo s.cfg (.rawWrite a off v) = [.start, .tx a, .tx off, .tx v, .stop] ∧
    expandPseudo s.cfg (.probe a) = [.start, .tx a, .stop] ∧
    (s.cfg.wellFormed = true → (∃ i < s.cfg.nchips, s.cfg.addr8 i = a) →
      (expandPseudo s.cfg (.unlock a)).map (fun i => exec i s) =
        [.next (ranFrames [[a, regOffset s.cfg.unlockReg, s.cfg.unlockMagic]] s)] ∧
      (expandPseudo s.cfg (.pageWrite a page)).map (fun i => exec i s) =
        [.next (ranFrames [[a, regOffset s.cfg.pageselReg, page]] s)])

/-! ## Wire formats -/

/-- 30_encoding R65, R66, R72, R73, 20_memory R44, R45: what a receiver reads of the events of some frames, from a released bus with no
frame open, is those frames, byte for byte, each between one START and one STOP condition, at a bus released again. (The
reading of the lines is PRESUMED, log 13.) -/
def Obligations.WireReadsFramesBack : Prop :=
  ∀ (fs : List Frame) (d : Nat → Bool) (r : Receiver), r.scl = true → r.sda = true → r.openBits = none →
    (r.read (framesEvents fs d)).frames = r.frames ++ fs ∧
    (r.read (framesEvents fs d)).conditions =
      r.conditions ++ (List.replicate fs.length [Condition.startCondition, Condition.stopCondition]).flatten ∧
    (r.read (framesEvents fs d)).scl = true ∧ (r.read (framesEvents fs d)).sda = true ∧
    (r.read (framesEvents fs d)).openBits = none

/-- 30_encoding R74, 70_reset_and_hazards R195: the events and the delays of each wire format: START 4 and 4, STOP 3 and 3, TX 28 and 27,
RX 29 and 21, a register-write frame 91 and 88, a burst frame of `len` data bytes `63 + 28*len` and `61 + 27*len`, a page-select
exchange 182 and 176. (The spec's own derivations.) -/
def Obligations.EventAndDelayCounts : Prop :=
  ∀ (p : Params) (b reg v page : Byte) (data : List Byte) (bit sendAck : Bool) (d : Nat → Bool),
    startEvents.length = 4 ∧ delaysOf startEvents = 4 ∧ stopEvents.length = 3 ∧ delaysOf stopEvents = 3 ∧
    (txEvents b bit).length = 28 ∧ delaysOf (txEvents b bit) = 27 ∧
    (rxEvents sendAck d).length = 29 ∧ delaysOf (rxEvents sendAck d) = 21 ∧
    (frameEvents [b, reg, v] d).length = 91 ∧ delaysOf (frameEvents [b, reg, v] d) = 88 ∧
    (frameEvents (b :: reg :: data) d).length = 63 + 28 * data.length ∧
    delaysOf (frameEvents (b :: reg :: data) d) = 61 + 27 * data.length ∧
    (framesEvents (selectFrames p b page) d).length = 182 ∧ delaysOf (framesEvents (selectFrames p b page) d) = 176
end

