-- ==== Sys2Proof/Laws/State.lean ====
section
/-! SUPPORT. What each update of State does to each field, one lemma per field per update, true by rfl, so that no later
proof unfolds a record update. -/

namespace Sys2Proof.Machine

@[simp] theorem delay_eq (s : State) : delay s = s := rfl

@[simp] theorem setScl_sclOut (b : Bool) (s : State) : (setScl b s).sclOut = b := rfl
@[simp] theorem setScl_sdaOut (b : Bool) (s : State) : (setScl b s).sdaOut = s.sdaOut := rfl
@[simp] theorem setScl_sdnOut (b : Bool) (s : State) : (setScl b s).sdnOut = s.sdnOut := rfl
@[simp] theorem setScl_cache (b : Bool) (s : State) : (setScl b s).cache = s.cache := rfl
@[simp] theorem setScl_pwmBuf (b : Bool) (s : State) : (setScl b s).pwmBuf = s.pwmBuf := rfl
@[simp] theorem setScl_onoffBuf (b : Bool) (s : State) : (setScl b s).onoffBuf = s.onoffBuf := rfl
@[simp] theorem setScl_trace (b : Bool) (s : State) : (setScl b s).trace = s.trace ++ [.driveScl b] := rfl
@[simp] theorem setScl_results (b : Bool) (s : State) : (setScl b s).results = s.results := rfl
@[simp] theorem setScl_inCritical (b : Bool) (s : State) : (setScl b s).inCritical = s.inCritical := rfl
@[simp] theorem setScl_faultMark (b : Bool) (s : State) : (setScl b s).faultMark = s.faultMark := rfl
@[simp] theorem setScl_refusedMark (b : Bool) (s : State) : (setScl b s).refusedMark = s.refusedMark := rfl
@[simp] theorem setScl_cmdIndex (b : Bool) (s : State) : (setScl b s).cmdIndex = s.cmdIndex := rfl
@[simp] theorem setScl_cfg (b : Bool) (s : State) : (setScl b s).cfg = s.cfg := rfl
@[simp] theorem setScl_stream (b : Bool) (s : State) : (setScl b s).stream = s.stream := rfl
@[simp] theorem setScl_draws (b : Bool) (s : State) : (setScl b s).draws = s.draws := rfl
@[simp] theorem setScl_drawCount (b : Bool) (s : State) : (setScl b s).drawCount = s.drawCount := rfl

@[simp] theorem setSda_sclOut (b : Bool) (s : State) : (setSda b s).sclOut = s.sclOut := rfl
@[simp] theorem setSda_sdaOut (b : Bool) (s : State) : (setSda b s).sdaOut = b := rfl
@[simp] theorem setSda_sdnOut (b : Bool) (s : State) : (setSda b s).sdnOut = s.sdnOut := rfl
@[simp] theorem setSda_cache (b : Bool) (s : State) : (setSda b s).cache = s.cache := rfl
@[simp] theorem setSda_pwmBuf (b : Bool) (s : State) : (setSda b s).pwmBuf = s.pwmBuf := rfl
@[simp] theorem setSda_onoffBuf (b : Bool) (s : State) : (setSda b s).onoffBuf = s.onoffBuf := rfl
@[simp] theorem setSda_trace (b : Bool) (s : State) : (setSda b s).trace = s.trace ++ [.driveSda b] := rfl
@[simp] theorem setSda_results (b : Bool) (s : State) : (setSda b s).results = s.results := rfl
@[simp] theorem setSda_inCritical (b : Bool) (s : State) : (setSda b s).inCritical = s.inCritical := rfl
@[simp] theorem setSda_faultMark (b : Bool) (s : State) : (setSda b s).faultMark = s.faultMark := rfl
@[simp] theorem setSda_refusedMark (b : Bool) (s : State) : (setSda b s).refusedMark = s.refusedMark := rfl
@[simp] theorem setSda_cmdIndex (b : Bool) (s : State) : (setSda b s).cmdIndex = s.cmdIndex := rfl
@[simp] theorem setSda_cfg (b : Bool) (s : State) : (setSda b s).cfg = s.cfg := rfl
@[simp] theorem setSda_stream (b : Bool) (s : State) : (setSda b s).stream = s.stream := rfl
@[simp] theorem setSda_draws (b : Bool) (s : State) : (setSda b s).draws = s.draws := rfl
@[simp] theorem setSda_drawCount (b : Bool) (s : State) : (setSda b s).drawCount = s.drawCount := rfl

@[simp] theorem setSdn_sclOut (b : Bool) (s : State) : (setSdn b s).sclOut = s.sclOut := rfl
@[simp] theorem setSdn_sdaOut (b : Bool) (s : State) : (setSdn b s).sdaOut = s.sdaOut := rfl
@[simp] theorem setSdn_sdnOut (b : Bool) (s : State) : (setSdn b s).sdnOut = .driven b := rfl
@[simp] theorem setSdn_cache (b : Bool) (s : State) : (setSdn b s).cache = s.cache := rfl
@[simp] theorem setSdn_pwmBuf (b : Bool) (s : State) : (setSdn b s).pwmBuf = s.pwmBuf := rfl
@[simp] theorem setSdn_onoffBuf (b : Bool) (s : State) : (setSdn b s).onoffBuf = s.onoffBuf := rfl
@[simp] theorem setSdn_trace (b : Bool) (s : State) : (setSdn b s).trace = s.trace ++ [.driveSdn b] := rfl
@[simp] theorem setSdn_results (b : Bool) (s : State) : (setSdn b s).results = s.results := rfl
@[simp] theorem setSdn_inCritical (b : Bool) (s : State) : (setSdn b s).inCritical = s.inCritical := rfl
@[simp] theorem setSdn_faultMark (b : Bool) (s : State) : (setSdn b s).faultMark = s.faultMark := rfl
@[simp] theorem setSdn_refusedMark (b : Bool) (s : State) : (setSdn b s).refusedMark = s.refusedMark := rfl
@[simp] theorem setSdn_cmdIndex (b : Bool) (s : State) : (setSdn b s).cmdIndex = s.cmdIndex := rfl
@[simp] theorem setSdn_cfg (b : Bool) (s : State) : (setSdn b s).cfg = s.cfg := rfl
@[simp] theorem setSdn_stream (b : Bool) (s : State) : (setSdn b s).stream = s.stream := rfl
@[simp] theorem setSdn_draws (b : Bool) (s : State) : (setSdn b s).draws = s.draws := rfl
@[simp] theorem setSdn_drawCount (b : Bool) (s : State) : (setSdn b s).drawCount = s.drawCount := rfl

@[simp] theorem takeDraw_sclOut (s : State) : (takeDraw s).sclOut = s.sclOut := rfl
@[simp] theorem takeDraw_sdaOut (s : State) : (takeDraw s).sdaOut = s.sdaOut := rfl
@[simp] theorem takeDraw_sdnOut (s : State) : (takeDraw s).sdnOut = s.sdnOut := rfl
@[simp] theorem takeDraw_cache (s : State) : (takeDraw s).cache = s.cache := rfl
@[simp] theorem takeDraw_pwmBuf (s : State) : (takeDraw s).pwmBuf = s.pwmBuf := rfl
@[simp] theorem takeDraw_onoffBuf (s : State) : (takeDraw s).onoffBuf = s.onoffBuf := rfl
@[simp] theorem takeDraw_trace (s : State) : (takeDraw s).trace = s.trace := rfl
@[simp] theorem takeDraw_results (s : State) : (takeDraw s).results = s.results := rfl
@[simp] theorem takeDraw_inCritical (s : State) : (takeDraw s).inCritical = s.inCritical := rfl
@[simp] theorem takeDraw_faultMark (s : State) : (takeDraw s).faultMark = s.faultMark := rfl
@[simp] theorem takeDraw_refusedMark (s : State) : (takeDraw s).refusedMark = s.refusedMark := rfl
@[simp] theorem takeDraw_cmdIndex (s : State) : (takeDraw s).cmdIndex = s.cmdIndex := rfl
@[simp] theorem takeDraw_cfg (s : State) : (takeDraw s).cfg = s.cfg := rfl
@[simp] theorem takeDraw_stream (s : State) : (takeDraw s).stream = s.stream := rfl
@[simp] theorem takeDraw_draws (s : State) : (takeDraw s).draws = s.draws.drop 1 := rfl
@[simp] theorem takeDraw_drawCount (s : State) : (takeDraw s).drawCount = s.drawCount + 1 := rfl

@[simp] theorem dropDraws_sclOut (n : Nat) (s : State) : (dropDraws n s).sclOut = s.sclOut := rfl
@[simp] theorem dropDraws_sdaOut (n : Nat) (s : State) : (dropDraws n s).sdaOut = s.sdaOut := rfl
@[simp] theorem dropDraws_sdnOut (n : Nat) (s : State) : (dropDraws n s).sdnOut = s.sdnOut := rfl
@[simp] theorem dropDraws_cache (n : Nat) (s : State) : (dropDraws n s).cache = s.cache := rfl
@[simp] theorem dropDraws_pwmBuf (n : Nat) (s : State) : (dropDraws n s).pwmBuf = s.pwmBuf := rfl
@[simp] theorem dropDraws_onoffBuf (n : Nat) (s : State) : (dropDraws n s).onoffBuf = s.onoffBuf := rfl
@[simp] theorem dropDraws_trace (n : Nat) (s : State) : (dropDraws n s).trace = s.trace := rfl
@[simp] theorem dropDraws_results (n : Nat) (s : State) : (dropDraws n s).results = s.results := rfl
@[simp] theorem dropDraws_inCritical (n : Nat) (s : State) : (dropDraws n s).inCritical = s.inCritical := rfl
@[simp] theorem dropDraws_faultMark (n : Nat) (s : State) : (dropDraws n s).faultMark = s.faultMark := rfl
@[simp] theorem dropDraws_refusedMark (n : Nat) (s : State) : (dropDraws n s).refusedMark = s.refusedMark := rfl
@[simp] theorem dropDraws_cmdIndex (n : Nat) (s : State) : (dropDraws n s).cmdIndex = s.cmdIndex := rfl
@[simp] theorem dropDraws_cfg (n : Nat) (s : State) : (dropDraws n s).cfg = s.cfg := rfl
@[simp] theorem dropDraws_stream (n : Nat) (s : State) : (dropDraws n s).stream = s.stream := rfl
@[simp] theorem dropDraws_draws (n : Nat) (s : State) : (dropDraws n s).draws = s.draws.drop n := rfl
@[simp] theorem dropDraws_drawCount (n : Nat) (s : State) : (dropDraws n s).drawCount = s.drawCount + n := rfl

@[simp] theorem enterCritical_sclOut (s : State) : (enterCritical s).sclOut = s.sclOut := rfl
@[simp] theorem enterCritical_sdaOut (s : State) : (enterCritical s).sdaOut = s.sdaOut := rfl
@[simp] theorem enterCritical_sdnOut (s : State) : (enterCritical s).sdnOut = s.sdnOut := rfl
@[simp] theorem enterCritical_cache (s : State) : (enterCritical s).cache = s.cache := rfl
@[simp] theorem enterCritical_pwmBuf (s : State) : (enterCritical s).pwmBuf = s.pwmBuf := rfl
@[simp] theorem enterCritical_onoffBuf (s : State) : (enterCritical s).onoffBuf = s.onoffBuf := rfl
@[simp] theorem enterCritical_trace (s : State) : (enterCritical s).trace = s.trace := rfl
@[simp] theorem enterCritical_results (s : State) : (enterCritical s).results = s.results := rfl
@[simp] theorem enterCritical_inCritical (s : State) : (enterCritical s).inCritical = true := rfl
@[simp] theorem enterCritical_faultMark (s : State) : (enterCritical s).faultMark = s.faultMark := rfl
@[simp] theorem enterCritical_refusedMark (s : State) : (enterCritical s).refusedMark = s.refusedMark := rfl
@[simp] theorem enterCritical_cmdIndex (s : State) : (enterCritical s).cmdIndex = s.cmdIndex := rfl
@[simp] theorem enterCritical_cfg (s : State) : (enterCritical s).cfg = s.cfg := rfl
@[simp] theorem enterCritical_stream (s : State) : (enterCritical s).stream = s.stream := rfl
@[simp] theorem enterCritical_draws (s : State) : (enterCritical s).draws = s.draws := rfl
@[simp] theorem enterCritical_drawCount (s : State) : (enterCritical s).drawCount = s.drawCount := rfl

@[simp] theorem exitCritical_sclOut (s : State) : (exitCritical s).sclOut = s.sclOut := rfl
@[simp] theorem exitCritical_sdaOut (s : State) : (exitCritical s).sdaOut = s.sdaOut := rfl
@[simp] theorem exitCritical_sdnOut (s : State) : (exitCritical s).sdnOut = s.sdnOut := rfl
@[simp] theorem exitCritical_cache (s : State) : (exitCritical s).cache = s.cache := rfl
@[simp] theorem exitCritical_pwmBuf (s : State) : (exitCritical s).pwmBuf = s.pwmBuf := rfl
@[simp] theorem exitCritical_onoffBuf (s : State) : (exitCritical s).onoffBuf = s.onoffBuf := rfl
@[simp] theorem exitCritical_trace (s : State) : (exitCritical s).trace = s.trace := rfl
@[simp] theorem exitCritical_results (s : State) : (exitCritical s).results = s.results := rfl
@[simp] theorem exitCritical_inCritical (s : State) : (exitCritical s).inCritical = false := rfl
@[simp] theorem exitCritical_faultMark (s : State) : (exitCritical s).faultMark = s.faultMark := rfl
@[simp] theorem exitCritical_refusedMark (s : State) : (exitCritical s).refusedMark = s.refusedMark := rfl
@[simp] theorem exitCritical_cmdIndex (s : State) : (exitCritical s).cmdIndex = s.cmdIndex := rfl
@[simp] theorem exitCritical_cfg (s : State) : (exitCritical s).cfg = s.cfg := rfl
@[simp] theorem exitCritical_stream (s : State) : (exitCritical s).stream = s.stream := rfl
@[simp] theorem exitCritical_draws (s : State) : (exitCritical s).draws = s.draws := rfl
@[simp] theorem exitCritical_drawCount (s : State) : (exitCritical s).drawCount = s.drawCount := rfl

@[simp] theorem setCache_sclOut (k : Nat) (e : CacheEntry) (s : State) : (setCache k e s).sclOut = s.sclOut := rfl
@[simp] theorem setCache_sdaOut (k : Nat) (e : CacheEntry) (s : State) : (setCache k e s).sdaOut = s.sdaOut := rfl
@[simp] theorem setCache_sdnOut (k : Nat) (e : CacheEntry) (s : State) : (setCache k e s).sdnOut = s.sdnOut := rfl
@[simp] theorem setCache_cache (k : Nat) (e : CacheEntry) (s : State) : (setCache k e s).cache = s.cache.set k e := rfl
@[simp] theorem setCache_pwmBuf (k : Nat) (e : CacheEntry) (s : State) : (setCache k e s).pwmBuf = s.pwmBuf := rfl
@[simp] theorem setCache_onoffBuf (k : Nat) (e : CacheEntry) (s : State) : (setCache k e s).onoffBuf = s.onoffBuf := rfl
@[simp] theorem setCache_trace (k : Nat) (e : CacheEntry) (s : State) : (setCache k e s).trace = s.trace := rfl
@[simp] theorem setCache_results (k : Nat) (e : CacheEntry) (s : State) : (setCache k e s).results = s.results := rfl
@[simp] theorem setCache_inCritical (k : Nat) (e : CacheEntry) (s : State) : (setCache k e s).inCritical = s.inCritical := rfl
@[simp] theorem setCache_faultMark (k : Nat) (e : CacheEntry) (s : State) : (setCache k e s).faultMark = s.faultMark := rfl
@[simp] theorem setCache_refusedMark (k : Nat) (e : CacheEntry) (s : State) : (setCache k e s).refusedMark = s.refusedMark := rfl
@[simp] theorem setCache_cmdIndex (k : Nat) (e : CacheEntry) (s : State) : (setCache k e s).cmdIndex = s.cmdIndex := rfl
@[simp] theorem setCache_cfg (k : Nat) (e : CacheEntry) (s : State) : (setCache k e s).cfg = s.cfg := rfl
@[simp] theorem setCache_stream (k : Nat) (e : CacheEntry) (s : State) : (setCache k e s).stream = s.stream := rfl
@[simp] theorem setCache_draws (k : Nat) (e : CacheEntry) (s : State) : (setCache k e s).draws = s.draws := rfl
@[simp] theorem setCache_drawCount (k : Nat) (e : CacheEntry) (s : State) : (setCache k e s).drawCount = s.drawCount := rfl

@[simp] theorem clearCache_sclOut (s : State) : (clearCache s).sclOut = s.sclOut := rfl
@[simp] theorem clearCache_sdaOut (s : State) : (clearCache s).sdaOut = s.sdaOut := rfl
@[simp] theorem clearCache_sdnOut (s : State) : (clearCache s).sdnOut = s.sdnOut := rfl
@[simp] theorem clearCache_cache (s : State) : (clearCache s).cache = List.replicate s.cfg.busChipCount .unknown := rfl
@[simp] theorem clearCache_pwmBuf (s : State) : (clearCache s).pwmBuf = s.pwmBuf := rfl
@[simp] theorem clearCache_onoffBuf (s : State) : (clearCache s).onoffBuf = s.onoffBuf := rfl
@[simp] theorem clearCache_trace (s : State) : (clearCache s).trace = s.trace := rfl
@[simp] theorem clearCache_results (s : State) : (clearCache s).results = s.results := rfl
@[simp] theorem clearCache_inCritical (s : State) : (clearCache s).inCritical = s.inCritical := rfl
@[simp] theorem clearCache_faultMark (s : State) : (clearCache s).faultMark = s.faultMark := rfl
@[simp] theorem clearCache_refusedMark (s : State) : (clearCache s).refusedMark = s.refusedMark := rfl
@[simp] theorem clearCache_cmdIndex (s : State) : (clearCache s).cmdIndex = s.cmdIndex := rfl
@[simp] theorem clearCache_cfg (s : State) : (clearCache s).cfg = s.cfg := rfl
@[simp] theorem clearCache_stream (s : State) : (clearCache s).stream = s.stream := rfl
@[simp] theorem clearCache_draws (s : State) : (clearCache s).draws = s.draws := rfl
@[simp] theorem clearCache_drawCount (s : State) : (clearCache s).drawCount = s.drawCount := rfl

@[simp] theorem complete_sclOut (r : CmdResult) (s : State) : (complete r s).sclOut = s.sclOut := rfl
@[simp] theorem complete_sdaOut (r : CmdResult) (s : State) : (complete r s).sdaOut = s.sdaOut := rfl
@[simp] theorem complete_sdnOut (r : CmdResult) (s : State) : (complete r s).sdnOut = s.sdnOut := rfl
@[simp] theorem complete_cache (r : CmdResult) (s : State) : (complete r s).cache = s.cache := rfl
@[simp] theorem complete_pwmBuf (r : CmdResult) (s : State) : (complete r s).pwmBuf = s.pwmBuf := rfl
@[simp] theorem complete_onoffBuf (r : CmdResult) (s : State) : (complete r s).onoffBuf = s.onoffBuf := rfl
@[simp] theorem complete_trace (r : CmdResult) (s : State) : (complete r s).trace = s.trace := rfl
@[simp] theorem complete_results (r : CmdResult) (s : State) : (complete r s).results = s.results ++ [r] := rfl
@[simp] theorem complete_inCritical (r : CmdResult) (s : State) : (complete r s).inCritical = s.inCritical := rfl
@[simp] theorem complete_faultMark (r : CmdResult) (s : State) : (complete r s).faultMark = s.faultMark := rfl
@[simp] theorem complete_refusedMark (r : CmdResult) (s : State) : (complete r s).refusedMark = s.refusedMark := rfl
@[simp] theorem complete_cmdIndex (r : CmdResult) (s : State) : (complete r s).cmdIndex = s.cmdIndex + 1 := rfl
@[simp] theorem complete_cfg (r : CmdResult) (s : State) : (complete r s).cfg = s.cfg := rfl
@[simp] theorem complete_stream (r : CmdResult) (s : State) : (complete r s).stream = s.stream := rfl
@[simp] theorem complete_draws (r : CmdResult) (s : State) : (complete r s).draws = s.draws := rfl
@[simp] theorem complete_drawCount (r : CmdResult) (s : State) : (complete r s).drawCount = s.drawCount := rfl

@[simp] theorem refuse_sclOut (r : RefusalReason) (s : State) : (refuse r s).sclOut = s.sclOut := rfl
@[simp] theorem refuse_sdaOut (r : RefusalReason) (s : State) : (refuse r s).sdaOut = s.sdaOut := rfl
@[simp] theorem refuse_sdnOut (r : RefusalReason) (s : State) : (refuse r s).sdnOut = s.sdnOut := rfl
@[simp] theorem refuse_cache (r : RefusalReason) (s : State) : (refuse r s).cache = s.cache := rfl
@[simp] theorem refuse_pwmBuf (r : RefusalReason) (s : State) : (refuse r s).pwmBuf = s.pwmBuf := rfl
@[simp] theorem refuse_onoffBuf (r : RefusalReason) (s : State) : (refuse r s).onoffBuf = s.onoffBuf := rfl
@[simp] theorem refuse_trace (r : RefusalReason) (s : State) : (refuse r s).trace = s.trace := rfl
@[simp] theorem refuse_results (r : RefusalReason) (s : State) : (refuse r s).results = s.results ++ [.none] := rfl
@[simp] theorem refuse_inCritical (r : RefusalReason) (s : State) : (refuse r s).inCritical = s.inCritical := rfl
@[simp] theorem refuse_faultMark (r : RefusalReason) (s : State) : (refuse r s).faultMark = s.faultMark := rfl
@[simp] theorem refuse_refusedMark (r : RefusalReason) (s : State) : (refuse r s).refusedMark = s.refusedMark.or (some r) := rfl
@[simp] theorem refuse_cmdIndex (r : RefusalReason) (s : State) : (refuse r s).cmdIndex = s.cmdIndex + 1 := rfl
@[simp] theorem refuse_cfg (r : RefusalReason) (s : State) : (refuse r s).cfg = s.cfg := rfl
@[simp] theorem refuse_stream (r : RefusalReason) (s : State) : (refuse r s).stream = s.stream := rfl
@[simp] theorem refuse_draws (r : RefusalReason) (s : State) : (refuse r s).draws = s.draws := rfl
@[simp] theorem refuse_drawCount (r : RefusalReason) (s : State) : (refuse r s).drawCount = s.drawCount := rfl

@[simp] theorem raiseFault_sclOut (r : FaultReason) (s : State) : (raiseFault r s).sclOut = s.sclOut := rfl
@[simp] theorem raiseFault_sdaOut (r : FaultReason) (s : State) : (raiseFault r s).sdaOut = s.sdaOut := rfl
@[simp] theorem raiseFault_sdnOut (r : FaultReason) (s : State) : (raiseFault r s).sdnOut = s.sdnOut := rfl
@[simp] theorem raiseFault_cache (r : FaultReason) (s : State) : (raiseFault r s).cache = s.cache := rfl
@[simp] theorem raiseFault_pwmBuf (r : FaultReason) (s : State) : (raiseFault r s).pwmBuf = s.pwmBuf := rfl
@[simp] theorem raiseFault_onoffBuf (r : FaultReason) (s : State) : (raiseFault r s).onoffBuf = s.onoffBuf := rfl
@[simp] theorem raiseFault_trace (r : FaultReason) (s : State) : (raiseFault r s).trace = s.trace := rfl
@[simp] theorem raiseFault_results (r : FaultReason) (s : State) : (raiseFault r s).results = s.results ++ [.none] := rfl
@[simp] theorem raiseFault_inCritical (r : FaultReason) (s : State) : (raiseFault r s).inCritical = s.inCritical := rfl
@[simp] theorem raiseFault_faultMark (r : FaultReason) (s : State) : (raiseFault r s).faultMark = s.faultMark.or (some r) := rfl
@[simp] theorem raiseFault_refusedMark (r : FaultReason) (s : State) : (raiseFault r s).refusedMark = s.refusedMark := rfl
@[simp] theorem raiseFault_cmdIndex (r : FaultReason) (s : State) : (raiseFault r s).cmdIndex = s.cmdIndex + 1 := rfl
@[simp] theorem raiseFault_cfg (r : FaultReason) (s : State) : (raiseFault r s).cfg = s.cfg := rfl
@[simp] theorem raiseFault_stream (r : FaultReason) (s : State) : (raiseFault r s).stream = s.stream := rfl
@[simp] theorem raiseFault_draws (r : FaultReason) (s : State) : (raiseFault r s).draws = s.draws := rfl
@[simp] theorem raiseFault_drawCount (r : FaultReason) (s : State) : (raiseFault r s).drawCount = s.drawCount := rfl

@[simp] theorem loadBuffers_sclOut (d : Display) (i : Nat) (s : State) : (loadBuffers d i s).sclOut = s.sclOut := rfl
@[simp] theorem loadBuffers_sdaOut (d : Display) (i : Nat) (s : State) : (loadBuffers d i s).sdaOut = s.sdaOut := rfl
@[simp] theorem loadBuffers_sdnOut (d : Display) (i : Nat) (s : State) : (loadBuffers d i s).sdnOut = s.sdnOut := rfl
@[simp] theorem loadBuffers_cache (d : Display) (i : Nat) (s : State) : (loadBuffers d i s).cache = s.cache := rfl
@[simp] theorem loadBuffers_pwmBuf (d : Display) (i : Nat) (s : State) : (loadBuffers d i s).pwmBuf = serializePwm s.cfg d i := rfl
@[simp] theorem loadBuffers_onoffBuf (d : Display) (i : Nat) (s : State) : (loadBuffers d i s).onoffBuf = serializeOnoff s.cfg d i := rfl
@[simp] theorem loadBuffers_trace (d : Display) (i : Nat) (s : State) : (loadBuffers d i s).trace = s.trace := rfl
@[simp] theorem loadBuffers_results (d : Display) (i : Nat) (s : State) : (loadBuffers d i s).results = s.results := rfl
@[simp] theorem loadBuffers_inCritical (d : Display) (i : Nat) (s : State) : (loadBuffers d i s).inCritical = s.inCritical := rfl
@[simp] theorem loadBuffers_faultMark (d : Display) (i : Nat) (s : State) : (loadBuffers d i s).faultMark = s.faultMark := rfl
@[simp] theorem loadBuffers_refusedMark (d : Display) (i : Nat) (s : State) : (loadBuffers d i s).refusedMark = s.refusedMark := rfl
@[simp] theorem loadBuffers_cmdIndex (d : Display) (i : Nat) (s : State) : (loadBuffers d i s).cmdIndex = s.cmdIndex := rfl
@[simp] theorem loadBuffers_cfg (d : Display) (i : Nat) (s : State) : (loadBuffers d i s).cfg = s.cfg := rfl
@[simp] theorem loadBuffers_stream (d : Display) (i : Nat) (s : State) : (loadBuffers d i s).stream = s.stream := rfl
@[simp] theorem loadBuffers_draws (d : Display) (i : Nat) (s : State) : (loadBuffers d i s).draws = s.draws := rfl
@[simp] theorem loadBuffers_drawCount (d : Display) (i : Nat) (s : State) : (loadBuffers d i s).drawCount = s.drawCount := rfl

@[simp] theorem clearBuffers_sclOut (s : State) : (clearBuffers s).sclOut = s.sclOut := rfl
@[simp] theorem clearBuffers_sdaOut (s : State) : (clearBuffers s).sdaOut = s.sdaOut := rfl
@[simp] theorem clearBuffers_sdnOut (s : State) : (clearBuffers s).sdnOut = s.sdnOut := rfl
@[simp] theorem clearBuffers_cache (s : State) : (clearBuffers s).cache = s.cache := rfl
@[simp] theorem clearBuffers_pwmBuf (s : State) : (clearBuffers s).pwmBuf = [] := rfl
@[simp] theorem clearBuffers_onoffBuf (s : State) : (clearBuffers s).onoffBuf = [] := rfl
@[simp] theorem clearBuffers_trace (s : State) : (clearBuffers s).trace = s.trace := rfl
@[simp] theorem clearBuffers_results (s : State) : (clearBuffers s).results = s.results := rfl
@[simp] theorem clearBuffers_inCritical (s : State) : (clearBuffers s).inCritical = s.inCritical := rfl
@[simp] theorem clearBuffers_faultMark (s : State) : (clearBuffers s).faultMark = s.faultMark := rfl
@[simp] theorem clearBuffers_refusedMark (s : State) : (clearBuffers s).refusedMark = s.refusedMark := rfl
@[simp] theorem clearBuffers_cmdIndex (s : State) : (clearBuffers s).cmdIndex = s.cmdIndex := rfl
@[simp] theorem clearBuffers_cfg (s : State) : (clearBuffers s).cfg = s.cfg := rfl
@[simp] theorem clearBuffers_stream (s : State) : (clearBuffers s).stream = s.stream := rfl
@[simp] theorem clearBuffers_draws (s : State) : (clearBuffers s).draws = s.draws := rfl
@[simp] theorem clearBuffers_drawCount (s : State) : (clearBuffers s).drawCount = s.drawCount := rfl

@[simp] theorem State.withStream_sclOut (rest : List Byte) (s : State) : (s.withStream rest).sclOut = s.sclOut := rfl
@[simp] theorem State.withStream_sdaOut (rest : List Byte) (s : State) : (s.withStream rest).sdaOut = s.sdaOut := rfl
@[simp] theorem State.withStream_sdnOut (rest : List Byte) (s : State) : (s.withStream rest).sdnOut = s.sdnOut := rfl
@[simp] theorem State.withStream_cache (rest : List Byte) (s : State) : (s.withStream rest).cache = s.cache := rfl
@[simp] theorem State.withStream_pwmBuf (rest : List Byte) (s : State) : (s.withStream rest).pwmBuf = s.pwmBuf := rfl
@[simp] theorem State.withStream_onoffBuf (rest : List Byte) (s : State) : (s.withStream rest).onoffBuf = s.onoffBuf := rfl
@[simp] theorem State.withStream_trace (rest : List Byte) (s : State) : (s.withStream rest).trace = s.trace := rfl
@[simp] theorem State.withStream_results (rest : List Byte) (s : State) : (s.withStream rest).results = s.results := rfl
@[simp] theorem State.withStream_inCritical (rest : List Byte) (s : State) : (s.withStream rest).inCritical = s.inCritical := rfl
@[simp] theorem State.withStream_faultMark (rest : List Byte) (s : State) : (s.withStream rest).faultMark = s.faultMark := rfl
@[simp] theorem State.withStream_refusedMark (rest : List Byte) (s : State) : (s.withStream rest).refusedMark = s.refusedMark := rfl
@[simp] theorem State.withStream_cmdIndex (rest : List Byte) (s : State) : (s.withStream rest).cmdIndex = s.cmdIndex := rfl
@[simp] theorem State.withStream_cfg (rest : List Byte) (s : State) : (s.withStream rest).cfg = s.cfg := rfl
@[simp] theorem State.withStream_stream (rest : List Byte) (s : State) : (s.withStream rest).stream = rest := rfl
@[simp] theorem State.withStream_draws (rest : List Byte) (s : State) : (s.withStream rest).draws = s.draws := rfl
@[simp] theorem State.withStream_drawCount (rest : List Byte) (s : State) : (s.withStream rest).drawCount = s.drawCount := rfl

@[simp] theorem State.withFetchWord_sclOut (nbits w : Nat) (s : State) : (s.withFetchWord nbits w).sclOut = s.sclOut := rfl
@[simp] theorem State.withFetchWord_sdaOut (nbits w : Nat) (s : State) : (s.withFetchWord nbits w).sdaOut = s.sdaOut := rfl
@[simp] theorem State.withFetchWord_sdnOut (nbits w : Nat) (s : State) : (s.withFetchWord nbits w).sdnOut = s.sdnOut := rfl
@[simp] theorem State.withFetchWord_cache (nbits w : Nat) (s : State) : (s.withFetchWord nbits w).cache = s.cache := rfl
@[simp] theorem State.withFetchWord_pwmBuf (nbits w : Nat) (s : State) : (s.withFetchWord nbits w).pwmBuf = s.pwmBuf := rfl
@[simp] theorem State.withFetchWord_onoffBuf (nbits w : Nat) (s : State) : (s.withFetchWord nbits w).onoffBuf = s.onoffBuf := rfl
@[simp] theorem State.withFetchWord_trace (nbits w : Nat) (s : State) : (s.withFetchWord nbits w).trace = s.trace := rfl
@[simp] theorem State.withFetchWord_results (nbits w : Nat) (s : State) : (s.withFetchWord nbits w).results = s.results := rfl
@[simp] theorem State.withFetchWord_inCritical (nbits w : Nat) (s : State) : (s.withFetchWord nbits w).inCritical = s.inCritical := rfl
@[simp] theorem State.withFetchWord_faultMark (nbits w : Nat) (s : State) : (s.withFetchWord nbits w).faultMark = s.faultMark := rfl
@[simp] theorem State.withFetchWord_refusedMark (nbits w : Nat) (s : State) : (s.withFetchWord nbits w).refusedMark = s.refusedMark := rfl
@[simp] theorem State.withFetchWord_cmdIndex (nbits w : Nat) (s : State) : (s.withFetchWord nbits w).cmdIndex = s.cmdIndex := rfl
@[simp] theorem State.withFetchWord_cfg (nbits w : Nat) (s : State) : (s.withFetchWord nbits w).cfg = s.cfg := rfl
@[simp] theorem State.withFetchWord_stream (nbits w : Nat) (s : State) : (s.withFetchWord nbits w).stream = tableBytes s.cfg nbits w := rfl
@[simp] theorem State.withFetchWord_draws (nbits w : Nat) (s : State) : (s.withFetchWord nbits w).draws = s.draws := rfl
@[simp] theorem State.withFetchWord_drawCount (nbits w : Nat) (s : State) : (s.withFetchWord nbits w).drawCount = s.drawCount := rfl

@[simp] theorem sentFrames_sclOut (fs : List Frame) (s : State) : (sentFrames fs s).sclOut = true := rfl
@[simp] theorem sentFrames_sdaOut (fs : List Frame) (s : State) : (sentFrames fs s).sdaOut = true := rfl
@[simp] theorem sentFrames_sdnOut (fs : List Frame) (s : State) : (sentFrames fs s).sdnOut = s.sdnOut := rfl
@[simp] theorem sentFrames_cache (fs : List Frame) (s : State) : (sentFrames fs s).cache = s.cache := rfl
@[simp] theorem sentFrames_pwmBuf (fs : List Frame) (s : State) : (sentFrames fs s).pwmBuf = s.pwmBuf := rfl
@[simp] theorem sentFrames_onoffBuf (fs : List Frame) (s : State) : (sentFrames fs s).onoffBuf = s.onoffBuf := rfl
@[simp] theorem sentFrames_trace (fs : List Frame) (s : State) : (sentFrames fs s).trace = s.trace ++ framesEvents fs s.drawAt := rfl
@[simp] theorem sentFrames_results (fs : List Frame) (s : State) : (sentFrames fs s).results = s.results := rfl
@[simp] theorem sentFrames_inCritical (fs : List Frame) (s : State) : (sentFrames fs s).inCritical = false := rfl
@[simp] theorem sentFrames_faultMark (fs : List Frame) (s : State) : (sentFrames fs s).faultMark = s.faultMark := rfl
@[simp] theorem sentFrames_refusedMark (fs : List Frame) (s : State) : (sentFrames fs s).refusedMark = s.refusedMark := rfl
@[simp] theorem sentFrames_cmdIndex (fs : List Frame) (s : State) : (sentFrames fs s).cmdIndex = s.cmdIndex := rfl
@[simp] theorem sentFrames_cfg (fs : List Frame) (s : State) : (sentFrames fs s).cfg = s.cfg := rfl
@[simp] theorem sentFrames_stream (fs : List Frame) (s : State) : (sentFrames fs s).stream = s.stream := rfl
@[simp] theorem sentFrames_draws (fs : List Frame) (s : State) : (sentFrames fs s).draws = s.draws.drop (slotCount fs) := rfl
@[simp] theorem sentFrames_drawCount (fs : List Frame) (s : State) : (sentFrames fs s).drawCount = s.drawCount + slotCount fs := rfl

end Sys2Proof.Machine
end

