-- ==== Sys2Proof/Laws/Memory.lean ====
section
/-! SUPPORT. The laws of the scratch buffers: every operation keeps the canonical form, a read after a write, and that
canonical contents with equal bytes are equal data. -/

namespace Sys2Proof.Machine

/-- Every cell of `m` lies above the address `a`. -/
abbrev Memory.Above (a : Nat) (m : Memory) : Prop := ∀ c ∈ m, a < c.1

theorem Memory.wf_nil : Memory.wf [] := by simp [Memory.wf]

theorem Memory.wf_cons_iff (a : Nat) (v : Byte) (m : Memory) :
    Memory.wf ((a, v) :: m) ↔ v ≠ Memory.unlisted ∧ Memory.Above a m ∧ Memory.wf m := by
  simp only [Memory.wf, Memory.Above, List.pairwise_cons, List.mem_cons, forall_eq_or_imp]
  tauto

theorem Memory.cons_wf {a : Nat} {m : Memory} (v : Byte) (h : Memory.wf m) (ha : Memory.Above a m) :
    Memory.wf (Memory.cons a v m) := by
  unfold Memory.cons
  split
  · exact h
  · exact (Memory.wf_cons_iff _ _ _).mpr ⟨‹_›, ha, h⟩

theorem Memory.read_above {a b : Nat} {m : Memory} (h : Memory.Above a m) (hb : b ≤ a) :
    Memory.read m b = Memory.unlisted := by
  induction m with
  | nil => rfl
  | cons c m ih =>
    have hc := h c (by simp)
    simp only [Memory.read]
    rw [if_neg (by omega)]
    exact ih fun d hd => h d (by simp [hd])

theorem Memory.read_cons {a : Nat} {m : Memory} (v : Byte) (b : Nat) (h : Memory.Above a m) :
    Memory.read (Memory.cons a v m) b = if b = a then v else Memory.read m b := by
  unfold Memory.cons
  split
  · split
    · subst_vars; exact Memory.read_above h (Nat.le_refl _)
    · rfl
  · rfl

theorem Memory.write_above {a b : Nat} {m : Memory} (v : Byte) (h : Memory.Above b m) (hab : b < a) :
    Memory.Above b (Memory.write m a v) := by
  have hcons : ∀ m', Memory.Above b m' → Memory.Above b (Memory.cons a v m') := by
    intro m' h' c hc
    unfold Memory.cons at hc
    split at hc
    · exact h' c hc
    · rcases List.mem_cons.mp hc with rfl | hc
      · exact hab
      · exact h' c hc
  induction m with
  | nil => exact hcons [] h
  | cons c m ih =>
    obtain ⟨x, w⟩ := c
    have hm : Memory.Above b m := fun d hd => h d (by simp [hd])
    simp only [Memory.write]
    split
    · exact hcons _ h
    · split
      · exact hcons _ hm
      · intro d hd
        rcases List.mem_cons.mp hd with rfl | hd
        · exact h _ (by simp)
        · exact ih hm d hd

/-- A write keeps the canonical form. -/
theorem Memory.write_wf {m : Memory} (a : Nat) (v : Byte) (h : Memory.wf m) : Memory.wf (Memory.write m a v) := by
  induction m with
  | nil => exact Memory.cons_wf v h (by simp [Memory.Above])
  | cons c m ih =>
    obtain ⟨x, w⟩ := c
    obtain ⟨hw, hx, hm⟩ := (Memory.wf_cons_iff _ _ _).mp h
    simp only [Memory.write]
    split
    · refine Memory.cons_wf v h fun d hd => ?_
      rcases List.mem_cons.mp hd with rfl | hd
      · assumption
      · have := hx d hd; omega
    · split
      · subst_vars; exact Memory.cons_wf v hm hx
      · exact (Memory.wf_cons_iff _ _ _).mpr ⟨hw, Memory.write_above v hx (by omega), ih hm⟩

/-- A read after a write: the written byte at its address, every other byte as before. -/
theorem Memory.read_write {m : Memory} (a : Nat) (v : Byte) (b : Nat) (h : Memory.wf m) :
    Memory.read (Memory.write m a v) b = if b = a then v else Memory.read m b := by
  induction m with
  | nil => exact Memory.read_cons v b (by simp [Memory.Above])
  | cons c m ih =>
    obtain ⟨x, w⟩ := c
    obtain ⟨-, hx, hm⟩ := (Memory.wf_cons_iff _ _ _).mp h
    simp only [Memory.write]
    split
    · refine Memory.read_cons v b fun d hd => ?_
      rcases List.mem_cons.mp hd with rfl | hd
      · assumption
      · have := hx d hd; omega
    · split
      · subst_vars
        rw [Memory.read_cons v b hx]
        by_cases hb : b = x <;> simp [Memory.read, hb]
      · simp only [Memory.read, ih hm]
        by_cases hb : b = x
        · subst hb; rw [if_pos rfl, if_neg (by omega)]; simp
        · simp [hb]

theorem Memory.orByte_wf {m : Memory} (a : Nat) (v : Byte) (h : Memory.wf m) : Memory.wf (Memory.orByte m a v) :=
  Memory.write_wf a _ h

/-- An OR into a byte sets its bits there and leaves every other byte. -/
theorem Memory.read_orByte {m : Memory} (a : Nat) (v : Byte) (b : Nat) (h : Memory.wf m) :
    Memory.read (Memory.orByte m a v) b = if b = a then Memory.read m a ||| v else Memory.read m b :=
  Memory.read_write a _ b h

/-- Canonical contents with equal bytes are equal data. -/
theorem Memory.ext_read {m n : Memory} (hm : Memory.wf m) (hn : Memory.wf n) (h : ∀ a, Memory.read m a = Memory.read n a) :
    m = n := by
  induction m generalizing n with
  | nil =>
    cases n with
    | nil => rfl
    | cons c n =>
      obtain ⟨x, w⟩ := c
      have := h x
      obtain ⟨hw, -, -⟩ := (Memory.wf_cons_iff _ _ _).mp hn
      simp [Memory.read] at this
      exact absurd this.symm hw
  | cons c m ih =>
    obtain ⟨x, v⟩ := c
    obtain ⟨hv, hx, hm'⟩ := (Memory.wf_cons_iff _ _ _).mp hm
    cases n with
    | nil =>
      have := h x
      simp [Memory.read] at this
      exact absurd this hv
    | cons d n =>
      obtain ⟨y, w⟩ := d
      obtain ⟨hw, hy, hn'⟩ := (Memory.wf_cons_iff _ _ _).mp hn
      have hxy : x = y := by
        rcases Nat.lt_trichotomy x y with hlt | rfl | hlt
        · have := h x
          simp only [Memory.read, if_true, if_neg (Nat.ne_of_lt hlt)] at this
          rw [Memory.read_above hy (by omega)] at this
          exact absurd this hv
        · rfl
        · have := h y
          simp only [Memory.read, if_true, if_neg (Nat.ne_of_lt hlt)] at this
          rw [Memory.read_above hx (by omega)] at this
          exact absurd this.symm hw
      subst hxy
      have hvw : v = w := by simpa [Memory.read] using h x
      subst hvw
      rw [ih hm' hn' fun a => ?_]
      by_cases hax : a = x
      · subst hax; rw [Memory.read_above hx (Nat.le_refl _), Memory.read_above hy (Nat.le_refl _)]
      · simpa [Memory.read, hax] using h a

/-- The scratch buffers of the reset state are canonical. -/
theorem resetWith_buffers_wf (p : Params) : Memory.wf (State.resetWith p).pwmBuf ∧ Memory.wf (State.resetWith p).onoffBuf :=
  ⟨Memory.wf_nil, Memory.wf_nil⟩

/-- A build keeps the canonical form when each pixel's write does. -/
theorem buildBuffer_wf {write : Nat → Nat → Pixel → Memory → Memory}
    (hw : ∀ cx cy px m, Memory.wf m → Memory.wf (write cx cy px m)) (p : Params) (d : Display) (i : Nat) :
    Memory.wf (buildBuffer write p d i) := by
  suffices h : ∀ (cs : List (Nat × Nat)) (m : Memory), Memory.wf m → Memory.wf (cs.foldl (buildAt write p d i) m) from
    h _ _ Memory.wf_nil
  intro cs
  induction cs with
  | nil => exact fun m h => h
  | cons c cs ih =>
    intro m h
    refine ih _ ?_
    unfold buildAt
    cases p.pixelAt d i c.1 c.2 with
    | none => exact h
    | some px => exact hw _ _ _ _ h

theorem pwmPixel_wf (p : Params) (cx cy : Nat) (px : Pixel) (m : Memory) (h : Memory.wf m) :
    Memory.wf (pwmPixel p cx cy px m) :=
  Memory.write_wf _ _ (Memory.write_wf _ _ (Memory.write_wf _ _ (Memory.write_wf _ _ h)))

theorem onoffPixel_wf (p : Params) (cx cy : Nat) (px : Pixel) (m : Memory) (h : Memory.wf m) :
    Memory.wf (onoffPixel p cx cy px m) := by
  unfold onoffPixel
  split
  · exact Memory.orByte_wf _ _ (Memory.orByte_wf _ _ h)
  · exact h

/-- The PWM buffer of `Serialize(D, i)` is canonical. -/
theorem serializePwm_wf (p : Params) (d : Display) (i : Nat) : Memory.wf (serializePwm p d i) :=
  buildBuffer_wf (pwmPixel_wf p) p d i

/-- The on/off buffer of `Serialize(D, i)` is canonical. -/
theorem serializeOnoff_wf (p : Params) (d : Display) (i : Nat) : Memory.wf (serializeOnoff p d i) :=
  buildBuffer_wf (onoffPixel_wf p) p d i

end Sys2Proof.Machine
end

