-- ==== Sys2Proof/Laws/Params.lean ====
section
/-! SUPPORT. What a well-formed parameter set gives (00_scope R9). -/

namespace Sys2Proof.Params

theorem wellFormed_iff (p : Params) :
    p.wellFormed = true ↔ p.TypesOk ∧ p.RegistersOk ∧ p.ChipsOk ∧ p.IndicesFit ∧ p.BuffersOk := by
  simp only [wellFormed, decide_eq_true_eq]

theorem indicesFit_of_wellFormed {p : Params} (h : p.wellFormed = true) : p.indicesFit = true := by
  simp only [indicesFit, decide_eq_true_eq]
  exact (p.wellFormed_iff.mp h).2.2.2.1

theorem mem_nativePositions (p : Params) (cx cy : Nat) :
    (cx, cy) ∈ p.nativePositions ↔ cx < p.chipWidth ∧ cy < p.chipHeight := by
  simp [nativePositions]

theorem mem_covered (p : Params) (i cx cy : Nat) :
    (cx, cy) ∈ p.covered i ↔ cx < p.lastCol i + 1 - p.firstCol i ∧ cy < p.lastRow i + 1 - p.firstRow i := by
  simp [covered]

/-- Distinct chips have distinct keys (00_scope R9 item 4). -/
theorem key_inj {p : Params} (h : p.wellFormed = true) {i j : Nat} (hi : i < p.nchips) (hj : j < p.nchips)
    (hk : p.key (p.addr8 i) = p.key (p.addr8 j)) : i = j := by
  have hn := (p.wellFormed_iff.mp h).2.2.1.2.2.2.2.2
  exact List.inj_on_of_nodup_map hn (List.mem_range.mpr hi) (List.mem_range.mpr hj) hk

theorem nchips_pos {p : Params} (h : p.wellFormed = true) : 0 < p.nchips := by
  obtain ⟨hw, hh, hcw, hch, -⟩ := (p.wellFormed_iff.mp h).1
  have : ∀ a b, 1 ≤ a → 1 ≤ b → 0 < ceilDiv a b := fun a b ha hb => Nat.div_pos (by omega) (by omega)
  exact Nat.mul_pos (this _ _ hw hcw) (this _ _ hh hch)

theorem key_lt {p : Params} (h : p.wellFormed = true) (addr : Byte) : p.key addr < p.busChipCount :=
  Nat.mod_lt _ (p.wellFormed_iff.mp h).2.2.1.2.1

/-- A configured address is even (30_encoding R62). -/
theorem addr8_even (p : Params) (i : Nat) : (p.addr8 i).getLsbD 0 = false := by
  simp [addr8]

theorem configured_iff (p : Params) (addr : Byte) : p.configured addr = true ↔ ∃ i < p.nchips, p.addr8 i = addr := by
  simp [configured]

end Sys2Proof.Params
end

