-- ==== Sys2Proof/Laws/Ops.lean ====
section
/-! SUPPORT. What each shared operation does, said once: the transport sequences, a transaction, and the driver operations as
the frames they put on the bus and the cache they leave. -/

namespace Sys2Proof.Machine

/-! ## Draws -/

theorem drawAt_fun (s : State) : s.drawAt = fun n => s.draws.getD n (Config.slaveDraw (s.drawCount + n)) := rfl

@[simp] theorem dropDraws_drawAt (n k : Nat) (s : State) : (dropDraws n s).drawAt k = s.drawAt (n + k) := by
  simp [State.drawAt, dropDraws, List.getD_eq_getElem?_getD, Nat.add_assoc]

@[simp] theorem takeDraw_drawAt (k : Nat) (s : State) : (takeDraw s).drawAt k = s.drawAt (k + 1) := by
  simp [State.drawAt, takeDraw, List.getD_eq_getElem?_getD, Nat.add_comm, Nat.add_left_comm]

@[simp] theorem sentFrames_drawAt (fs : List Frame) (k : Nat) (s : State) :
    (sentFrames fs s).drawAt k = s.drawAt (slotCount fs + k) := by
  unfold sentFrames
  rw [dropDraws_drawAt]
  rfl

/-- Draws depend on the list and the counter alone. -/
theorem drawAt_congr {s t : State} (hd : s.draws = t.draws) (hc : s.drawCount = t.drawCount) : s.drawAt = t.drawAt := by
  funext n
  simp [State.drawAt, hd, hc]

/-! ## Transport sequences -/

theorem start_eq (s : State) :
    start s = { s with sclOut := false, sdaOut := false, trace := s.trace ++ startEvents } := by
  simp [start, setScl, setSda, startEvents]

theorem stop_eq (s : State) : stop s = { s with sclOut := true, sdaOut := true, trace := s.trace ++ stopEvents } := by
  simp [stop, setScl, setSda, stopEvents]

theorem tx_eq (b : Byte) (s : State) :
    tx b s = (ackOf (s.drawAt 0),
      dropDraws 1 { s with sclOut := false, sdaOut := true, trace := s.trace ++ txEvents b (s.drawAt 0) }) := by
  simp [tx, txCells, msbFirst, txCell, sample, setScl, setSda, takeDraw, dropDraws, txEvents, cellEvents, State.drawAt]

/-- Shifting sampled bits in at the low end builds the byte most significant bit first. -/
theorem shift_in_eq_byteOfBits (b0 b1 b2 b3 b4 b5 b6 b7 : Bool) :
    [b0, b1, b2, b3, b4, b5, b6, b7].foldl (fun (v : Byte) b => (v <<< 1) ||| (BitVec.ofBool b).setWidth 8) (0#8 : Byte) =
      BitVec.ofBool b0 ++ BitVec.ofBool b1 ++ BitVec.ofBool b2 ++ BitVec.ofBool b3 ++
        BitVec.ofBool b4 ++ BitVec.ofBool b5 ++ BitVec.ofBool b6 ++ BitVec.ofBool b7 := by
  revert b0 b1 b2 b3 b4 b5 b6 b7
  decide

theorem rxCell_eq (v : Byte) (s : State) (h : s.sdaOut = true) :
    rxCell (v, s) = ((v <<< 1) ||| (BitVec.ofBool (s.drawAt 0)).setWidth 8,
      dropDraws 1 { s with sclOut := false, trace := s.trace ++ rxCellEvents (s.drawAt 0) }) := by
  simp [rxCell, sample, setScl, takeDraw, dropDraws, rxCellEvents, State.drawAt, h]

theorem rx_eq (sendAck : Bool) (s : State) :
    rx sendAck s = (byteOfBits s.drawAt,
      dropDraws 8 { s with sclOut := false, sdaOut := true, trace := s.trace ++ rxEvents sendAck s.drawAt }) := by
  have hb := shift_in_eq_byteOfBits (s.drawAt 0) (s.drawAt 1) (s.drawAt 2) (s.drawAt 3) (s.drawAt 4) (s.drawAt 5)
    (s.drawAt 6) (s.drawAt 7)
  simp only [List.foldl_cons, List.foldl_nil] at hb
  simp only [rx, msbFirst, List.foldl_cons, List.foldl_nil]
  simp [rxCell_eq, dropDraws, setSda, setScl, State.drawAt, byteOfBits, rxEvents] at hb ⊢
  exact hb

/-! ## Acknowledgements and events of several bytes -/

theorem allAcked_zero (d : Nat → Bool) : allAcked 0 d = true := rfl

theorem allAcked_add (m n : Nat) (d : Nat → Bool) :
    allAcked (m + n) d = (allAcked m d && allAcked n fun j => d (m + j)) := by
  simp [allAcked, List.range_add, Function.comp_def]

theorem allAcked_one (d : Nat → Bool) : allAcked 1 d = ackOf (d 0) := by simp [allAcked]

theorem allAcked_succ (n : Nat) (d : Nat → Bool) : allAcked (n + 1) d = (ackOf (d 0) && allAcked n fun j => d (j + 1)) := by
  rw [Nat.add_comm, allAcked_add, allAcked_one]
  simp [Nat.add_comm]

@[simp] theorem slotCount_nil : slotCount [] = 0 := rfl

@[simp] theorem slotCount_cons (f : Frame) (fs : List Frame) : slotCount (f :: fs) = f.length + slotCount fs := rfl

@[simp] theorem slotCount_append (fs gs : List Frame) : slotCount (fs ++ gs) = slotCount fs + slotCount gs := by
  simp [slotCount]

theorem bytesEvents_append (xs ys : List Byte) (d : Nat → Bool) :
    bytesEvents (xs ++ ys) d = bytesEvents xs d ++ bytesEvents ys fun n => d (n + xs.length) := by
  induction xs generalizing d with
  | nil => simp [bytesEvents]
  | cons x xs ih => simp [bytesEvents, ih, Nat.add_assoc]

theorem framesEvents_append (fs gs : List Frame) (d : Nat → Bool) :
    framesEvents (fs ++ gs) d = framesEvents fs d ++ framesEvents gs fun n => d (n + slotCount fs) := by
  induction fs generalizing d with
  | nil => simp [framesEvents]
  | cons f fs ih => simp [framesEvents, ih, Nat.add_comm, Nat.add_left_comm]

/-! ## One transaction -/

theorem txAll_eq (bytes : List Byte) (ok : Bool) (s : State) (h : bytes ≠ []) :
    txAll bytes ok s = (allAcked bytes.length s.drawAt && ok,
      dropDraws bytes.length
        { s with sclOut := false, sdaOut := true, trace := s.trace ++ bytesEvents bytes s.drawAt }) := by
  induction bytes generalizing ok s with
  | nil => exact absurd rfl h
  | cons b rest ih =>
    by_cases hr : rest = []
    · subst hr
      simp [txAll, tx_eq, foldAck, allAcked_one, bytesEvents]
    · rw [txAll, ih _ _ hr, tx_eq]
      simp only [List.length_cons, allAcked_succ, bytesEvents, foldAck]
      simp [dropDraws, drawAt_fun, Nat.add_assoc, Nat.add_comm, Nat.add_left_comm, Bool.and_assoc, Bool.and_comm,
        List.getD_eq_getElem?_getD]

theorem writeBit_or (addr : Byte) : addr ||| Config.writeBit = addr := by simp [Config.writeBit]

theorem transaction_eq (addr : Byte) (bytes : List Byte) (s : State) :
    transaction addr bytes s = (allAcked (bytes.length + 1) s.drawAt,
      dropDraws (bytes.length + 1)
        { s with sclOut := true, sdaOut := true, trace := s.trace ++ frameEvents (addr :: bytes) s.drawAt }) := by
  have hstart := start_eq s
  simp only [transaction, hstart, writeBit_or, tx_eq]
  by_cases hb : bytes = []
  · subst hb
    simp [txAll, stop_eq, allAcked_one, frameEvents, bytesEvents, dropDraws, drawAt_fun]
  · rw [txAll_eq _ _ _ hb]
    simp only [stop_eq, allAcked_succ, frameEvents, bytesEvents]
    simp [dropDraws, drawAt_fun, Nat.add_assoc, Nat.add_comm, Nat.add_left_comm, Bool.and_comm, List.getD_eq_getElem?_getD]

/-- One transaction is one frame on the bus, and its answer the AND of the frame's acknowledgements. -/
theorem busWrite_eq (addr : Byte) (bytes : List Byte) (s : State) :
    busWrite addr bytes s = (allAcked (slotCount [addr :: bytes]) s.drawAt, sentFrames [addr :: bytes] s) := by
  simp [busWrite, transaction_eq, enterCritical, exitCritical, sentFrames, dropDraws, framesEvents, drawAt_fun]

/-- Inside a transaction the critical section is not left. -/
theorem transaction_inCritical (addr : Byte) (bytes : List Byte) (s : State) :
    (transaction addr bytes s).2.inCritical = s.inCritical := by
  rw [transaction_eq]; rfl

/-! ## Frames after frames -/

theorem sentFrames_sentFrames (fs gs : List Frame) (s : State) :
    sentFrames gs (sentFrames fs s) = sentFrames (fs ++ gs) s := by
  simp [sentFrames, dropDraws, framesEvents_append, drawAt_fun, Nat.add_assoc, Nat.add_comm, Nat.add_left_comm,
    List.getD_eq_getElem?_getD]

theorem sentFrames_setCache (fs : List Frame) (k : Nat) (e : CacheEntry) (s : State) :
    sentFrames fs (setCache k e s) = setCache k e (sentFrames fs s) := rfl

theorem allAcked_sentFrames (fs : List Frame) (n : Nat) (s : State) :
    allAcked (slotCount fs + n) s.drawAt = (allAcked (slotCount fs) s.drawAt && allAcked n (sentFrames fs s).drawAt) := by
  rw [allAcked_add]
  congr 1
  congr 1
  funext j
  simp

/-! ## Plans: the frames of a driver operation and the cache it leaves -/

/-- The frames of an operation, and the page cache after it. -/
abbrev Plan := List Frame × List CacheEntry

/-- SelectPage as a plan (41_chip_driver R113). -/
def planSelect (p : Params) (addr page : Byte) (cache : List CacheEntry) : Plan :=
  if cache.getD (p.key addr) .unknown = .page page then ([], cache)
  else (selectFrames p addr page, cache.set (p.key addr) (.page page))

/-- WriteReg as a plan (41_chip_driver R115). -/
def planWriteReg (p : Params) (addr : Byte) (reg : RegId) (value : Byte) (cache : List CacheEntry) : Plan :=
  if p.isGlobal reg then ([[addr, regOffset reg, value]], cache)
  else
    let sel := planSelect p addr (regPage reg) cache
    (sel.1 ++ [[addr, regOffset reg, value]], sel.2)

/-- WriteSeq to a paged register as a plan (41_chip_driver R117). -/
def planBurst (p : Params) (addr : Byte) (reg : RegId) (data : List Byte) (cache : List CacheEntry) : Plan :=
  let sel := planSelect p addr (regPage reg) cache
  (sel.1 ++ [addr :: regOffset reg :: data], sel.2)

/-- A plan after a plan. -/
def Plan.andThen (a : Plan) (next : List CacheEntry → Plan) : Plan :=
  let b := next a.2
  (a.1 ++ b.1, b.2)

/-- A plan for each index in turn. -/
def planEach (one : Nat → List CacheEntry → Plan) (indices : List Nat) (cache : List CacheEntry) : Plan :=
  match indices with
  | [] => ([], cache)
  | i :: rest => Plan.andThen (one i cache) (planEach one rest)

/-- What a plan does: it puts its frames on the bus, if it has any, and leaves its cache. -/
def ranPlan (plan : Plan) (s : State) : Bool × State :=
  (allAcked (slotCount plan.1) s.drawAt,
    if plan.1 = [] then { s with cache := plan.2 } else { sentFrames plan.1 s with cache := plan.2 })

@[simp] theorem ranPlan_cfg (plan : Plan) (s : State) : (ranPlan plan s).2.cfg = s.cfg := by
  unfold ranPlan; split <;> rfl

@[simp] theorem ranPlan_cache (plan : Plan) (s : State) : (ranPlan plan s).2.cache = plan.2 := by
  unfold ranPlan; split <;> rfl

theorem ranPlan_drawAt (plan : Plan) (s : State) (k : Nat) :
    (ranPlan plan s).2.drawAt k = s.drawAt (slotCount plan.1 + k) := by
  unfold ranPlan
  split
  · rename_i h; simp [h]; rfl
  · exact sentFrames_drawAt _ _ _

/-- A plan, then the plan that its cache leads to. -/
theorem ranPlan_andThen (a : Plan) (next : List CacheEntry → Plan) (s : State) :
    ranPlan (Plan.andThen a next) s =
      (foldAck (ranPlan (next a.2) (ranPlan a s).2).1 (ranPlan a s).1, (ranPlan (next a.2) (ranPlan a s).2).2) := by
  have hd : (ranPlan a s).2.drawAt = fun k => s.drawAt (slotCount a.1 + k) := funext fun k => ranPlan_drawAt a s k
  refine Prod.ext ?_ ?_
  · show allAcked _ _ = _
    simp only [Plan.andThen, slotCount_append, allAcked_add]
    simp only [foldAck, ranPlan, Bool.and_comm]
    congr 1
    congr 1
    rw [← hd]
    rfl
  · unfold ranPlan Plan.andThen
    by_cases ha : a.1 = []
    · by_cases hb : (next a.2).1 = [] <;> (simp [ha, hb, sentFrames, dropDraws]; try rfl)
    · by_cases hb : (next a.2).1 = []
      · simp [ha, hb]
      · simp only [ha, hb, if_false, List.append_eq_nil_iff, and_self]
        have := sentFrames_sentFrames a.1 (next a.2).1 s
        rw [← this]
        rfl

/-! ## Driver operations as plans -/

theorem selectPage_eq (addr page : Byte) (s : State) :
    selectPage addr page s = ranPlan (planSelect s.cfg addr page s.cache) s := by
  unfold selectPage planSelect
  by_cases h : s.cacheAt (s.cfg.key addr) = .page page
  · have h' : s.cache.getD (s.cfg.key addr) .unknown = .page page := h
    simp only [h, h', if_true]
    simp [ranPlan, allAcked_zero]
  · have h' : ¬ s.cache.getD (s.cfg.key addr) .unknown = .page page := h
    simp only [h, h', if_false, busWrite_eq, sentFrames_sentFrames]
    simp only [ranPlan, selectFrames]
    refine Prod.ext ?_ rfl
    simp only [foldAck]
    rw [← allAcked_sentFrames]
    rfl

theorem busWrite_eq_ranPlan (addr : Byte) (bytes : List Byte) (s : State) :
    busWrite addr bytes s = ranPlan ([addr :: bytes], s.cache) s := by
  rw [busWrite_eq]; rfl

theorem writeReg_eq (addr : Byte) (reg : RegId) (value : Byte) (s : State) :
    writeReg addr reg value s = ranPlan (planWriteReg s.cfg addr reg value s.cache) s := by
  unfold writeReg selectFor planWriteReg
  by_cases h : s.cfg.isGlobal reg
  · simp only [h, if_true, busWrite_eq_ranPlan, foldAck, Bool.and_true]
  · simp only [h, Bool.false_eq_true, if_false, selectPage_eq, busWrite_eq_ranPlan, ranPlan_cache]
    exact (ranPlan_andThen (planSelect s.cfg addr (regPage reg) s.cache) (fun c => ([[addr, regOffset reg, value]], c)) s).symm

theorem writeSeq_global (addr : Byte) (reg : RegId) (data : List Byte) (s : State) (h : s.cfg.isGlobal reg = true) :
    writeSeq addr reg data s = (false, s) := by
  simp [writeSeq, h]

theorem writeSeq_paged (addr : Byte) (reg : RegId) (data : List Byte) (s : State) (h : s.cfg.isGlobal reg = false) :
    writeSeq addr reg data s = ranPlan (planBurst s.cfg addr reg data s.cache) s := by
  unfold writeSeq planBurst
  simp only [h, Bool.false_eq_true, if_false, selectPage_eq, busWrite_eq_ranPlan, ranPlan_cache]
  exact (ranPlan_andThen (planSelect s.cfg addr (regPage reg) s.cache) (fun c => ([addr :: regOffset reg :: data], c)) s).symm

/-! ## Loops -/

/-- A loop whose body runs a plan for each index runs the plans one after the other. -/
theorem forEach_eq_ranPlan {body : Nat → State → Bool × State} {one : Nat → List CacheEntry → Plan} {p : Params}
    (hbody : ∀ i s, s.cfg = p → body i s = ranPlan (one i s.cache) s) (indices : List Nat) (ok : Bool) (s : State)
    (hs : s.cfg = p) :
    forEach body indices ok s =
      (foldAck (ranPlan (planEach one indices s.cache) s).1 ok, (ranPlan (planEach one indices s.cache) s).2) := by
  induction indices generalizing ok s with
  | nil => simp [forEach, planEach, ranPlan, foldAck, allAcked_zero]
  | cons i rest ih =>
    rw [forEach, hbody i s hs, ih _ _ (by simp [hs]), planEach, ranPlan_andThen]
    simp [foldAck, Bool.and_assoc]

/-! ## How a command ends -/

theorem refuse_eq (r : RefusalReason) (s : State) :
    refuse r s = { s with refusedMark := s.refusedMark.or (some r), results := s.results ++ [.none], cmdIndex := s.cmdIndex + 1 } :=
  rfl

theorem guarded_none (body : State → State) (s : State) : guarded none body s = body s := rfl

theorem guarded_some (r : RefusalReason) (body : State → State) (s : State) : guarded (some r) body s = refuse r s := rfl

end Sys2Proof.Machine
end

