-- ==== Sys2Proof/Laws/PerInstr.lean ====
section
/-! SUPPORT. One lemma per command: the length that a decoder reads from a command's first bytes is the length of its
encoding (30_encoding R79, R82). -/

namespace Sys2Proof.Laws

/-- Two bytes made of a 16-bit number, put together again. -/
theorem toNat_append_bytes (n : Nat) (h : n ≤ 65535) :
    (BitVec.ofNat 8 (n / 256) ++ BitVec.ofNat 8 (n % 256)).toNat = n := by
  rw [BitVec.toNat_append, BitVec.toNat_ofNat, BitVec.toNat_ofNat, Nat.mod_eq_of_lt (by omega : n / 256 < 2 ^ 8),
    Nat.mod_eq_of_lt (by omega : n % 256 < 2 ^ 8), ← Nat.shiftLeft_add_eq_or_of_lt (by omega), Nat.shiftLeft_eq]
  omega

theorem length_encodePixels (d : Display) : (d.flatMap encodePixel).length = 5 * d.length := by
  induction d with
  | nil => rfl
  | cons px rest ih => simp only [List.flatMap_cons, List.length_append, ih, encodePixel, List.length_cons, List.length_nil]; omega

namespace EncodedLength

/-- Whatever follows an encoded command, its first bytes give its length (30_encoding R82). -/
def Statement (i : Instr) : Prop :=
  ∀ (p : Params) (rest : List Byte), i.encodable p = true → commandLength p (encode i ++ rest) = (encode i).length

theorem start : Statement .start := fun _ _ _ => rfl

theorem stop : Statement .stop := fun _ _ _ => rfl

theorem tx (byte : Byte) : Statement (.tx byte) := fun _ _ _ => rfl

theorem rx (sendAck : Bool) : Statement (.rx sendAck) := fun _ _ _ => rfl

theorem selectPage (addr page : Byte) : Statement (.selectPage addr page) := fun _ _ _ => rfl

theorem writeReg (addr : Byte) (reg : RegId) (value : Byte) : Statement (.writeReg addr reg value) := fun _ _ _ => rfl

theorem writeSeq (addr : Byte) (startReg : RegId) (data : List Byte) : Statement (.writeSeq addr startReg data) := by
  intro p rest h
  have hlen : data.length ≤ 65535 := by simpa [Instr.encodable] using h
  show 6 + (BitVec.ofNat 8 (data.length / 256) ++ BitVec.ofNat 8 (data.length % 256)).toNat = _
  rw [toNat_append_bytes _ hlen]
  simp only [encode, encodeOperands, List.length_cons]
  omega

theorem driverInit : Statement .driverInit := fun _ _ _ => rfl

theorem displayInit (gain : Byte) : Statement (.displayInit gain) := fun _ _ _ => rfl

theorem render (display : Display) : Statement (.render display) := by
  intro p rest h
  have hlen : display.length = p.pixelCount := by simpa [Instr.encodable] using h
  show 1 + 5 * p.pixelCount = _
  rw [encode, encodeOperands, List.length_cons, length_encodePixels, hlen]
  omega

end EncodedLength

end Sys2Proof.Laws
end

