-- ==== Sys2Proof/Laws/Receiver.lean ====
section
/-! SUPPORT. What a receiver reads of one byte and of the START and STOP sequences. -/

namespace Sys2Proof.Machine

@[simp] theorem Receiver.read_nil (r : Receiver) : r.read [] = r := rfl

@[simp] theorem Receiver.read_cons (r : Receiver) (e : Event) (es : List Event) :
    r.read (e :: es) = (r.onEvent e).read es := rfl

theorem Receiver.read_append (r : Receiver) (xs ys : List Event) : r.read (xs ++ ys) = (r.read xs).read ys := by
  simp [Receiver.read]

/-- START from a released bus opens a frame. -/
theorem Receiver.read_startEvents (r : Receiver) (hc : r.scl = true) (hd : r.sda = true) :
    r.read startEvents =
      { r with scl := false, sda := false, latched := none, openBits := some [],
               closed := r.closed ++ r.openBits.toList, conditions := r.conditions ++ [.startCondition] } := by
  obtain ⟨scl, sda, latched, bits, closed, conds⟩ := r
  subst hc hd
  simp [startEvents, Receiver.onEvent, Receiver.onSda, Receiver.onScl]

/-- STOP inside a frame, from a low SCL, closes it. -/
theorem Receiver.read_stopEvents (r : Receiver) (hc : r.scl = false) :
    r.read stopEvents =
      { r with scl := true, sda := true, latched := none, openBits := none,
               closed := r.closed ++ r.openBits.toList, conditions := r.conditions ++ [.stopCondition] } := by
  obtain ⟨scl, sda, latched, bits, closed, conds⟩ := r
  subst hc
  simp [stopEvents, Receiver.onEvent, Receiver.onSda, Receiver.onScl]

/-- A bit cell from a low SCL adds its bit to the open frame and makes no condition. -/
theorem Receiver.read_cellEvents (r : Receiver) (b : Bool) (hc : r.scl = false) :
    r.read (cellEvents b) =
      { r with scl := false, sda := b, latched := none, openBits := r.openBits.map (· ++ [b]) } := by
  obtain ⟨scl, sda, latched, bits, closed, conds⟩ := r
  subst hc
  cases b <;> simp [cellEvents, Receiver.onEvent, Receiver.onSda, Receiver.onScl]

/-- The bits of a byte on the wire, most significant first, and its released acknowledge slot. -/
def slotBits (b : Byte) : List Bool :=
  [b.getLsbD 7, b.getLsbD 6, b.getLsbD 5, b.getLsbD 4, b.getLsbD 3, b.getLsbD 2, b.getLsbD 1, b.getLsbD 0, true]

/-- TX from a low SCL adds the byte's bits and its acknowledge slot to the open frame and makes no condition. -/
theorem Receiver.read_txEvents (r : Receiver) (b : Byte) (v : Bool) (hc : r.scl = false) :
    r.read (txEvents b v) =
      { r with scl := false, sda := true, latched := none, openBits := r.openBits.map (· ++ slotBits b) } := by
  simp only [txEvents, Receiver.read_append]
  simp only [Receiver.read_cellEvents, hc]
  obtain ⟨scl, sda, latched, bits, closed, conds⟩ := r
  cases bits <;> simp [Receiver.onEvent, Receiver.onSda, Receiver.onScl, slotBits]

/-- The bits of a byte read back as the byte. -/
theorem bytesOfBits_slotBits (b : Byte) (rest : List Bool) : bytesOfBits (slotBits b ++ rest) = b :: bytesOfBits rest := by
  have h : ∀ b : Byte, (BitVec.ofBool (b.getLsbD 7) ++ BitVec.ofBool (b.getLsbD 6) ++ BitVec.ofBool (b.getLsbD 5) ++
      BitVec.ofBool (b.getLsbD 4) ++ BitVec.ofBool (b.getLsbD 3) ++ BitVec.ofBool (b.getLsbD 2) ++
      BitVec.ofBool (b.getLsbD 1) ++ BitVec.ofBool (b.getLsbD 0) : Byte) = b := by decide
  simp only [slotBits, List.cons_append, bytesOfBits, h, List.nil_append]

end Sys2Proof.Machine
end

