-- ==== Sys2Proof/Laws/Step.lean ====
section
/-! SUPPORT. What the body of a command and a step can do, said once. -/

namespace Sys2Proof.Machine

/-- The samples among some events. -/
def samplesOf (es : List Event) : List Event := es.filter fun e => decide (e = .sample true ∨ e = .sample false)

@[simp] theorem samplesOf_nil : samplesOf [] = [] := rfl

@[simp] theorem samplesOf_append (xs ys : List Event) : samplesOf (xs ++ ys) = samplesOf xs ++ samplesOf ys := by
  simp [samplesOf]

theorem samplesOf_txEvents (b : Byte) (v : Bool) : (samplesOf (txEvents b v)).length = 1 := by
  cases v <;> simp [txEvents, cellEvents, samplesOf]

theorem samplesOf_bytesEvents (bytes : List Byte) (d : Nat → Bool) :
    (samplesOf (bytesEvents bytes d)).length = bytes.length := by
  induction bytes generalizing d with
  | nil => rfl
  | cons b rest ih => simp [bytesEvents, ih, samplesOf_txEvents, Nat.add_comm]

theorem samplesOf_framesEvents (fs : List Frame) (d : Nat → Bool) :
    (samplesOf (framesEvents fs d)).length = slotCount fs := by
  induction fs generalizing d with
  | nil => rfl
  | cons f rest ih =>
    have h1 : samplesOf startEvents = [] := by decide
    have h2 : samplesOf stopEvents = [] := by decide
    simp [framesEvents, frameEvents, ih, samplesOf_bytesEvents, h1, h2]

/-- What the body of a command may do to the bookkeeping: the parameters, the stream, the results, the marks and the count are
left, events are appended, and one draw is used for each sample among them. -/
structure Advances (s t : State) : Prop where
  cfg : t.cfg = s.cfg
  stream : t.stream = s.stream
  results : t.results = s.results
  faultMark : t.faultMark = s.faultMark
  refusedMark : t.refusedMark = s.refusedMark
  cmdIndex : t.cmdIndex = s.cmdIndex
  events : ∃ es, t.trace = s.trace ++ es ∧ t.drawCount = s.drawCount + (samplesOf es).length ∧
    t.draws = s.draws.drop (samplesOf es).length

theorem Advances.refl (s : State) : Advances s s := ⟨rfl, rfl, rfl, rfl, rfl, rfl, [], by simp, by simp, by simp⟩

theorem Advances.trans {s t u : State} (h : Advances s t) (k : Advances t u) : Advances s u := by
  obtain ⟨es, h1, h2, h3⟩ := h.events
  obtain ⟨fs, k1, k2, k3⟩ := k.events
  refine ⟨k.cfg.trans h.cfg, k.stream.trans h.stream, k.results.trans h.results, k.faultMark.trans h.faultMark,
    k.refusedMark.trans h.refusedMark, k.cmdIndex.trans h.cmdIndex, es ++ fs, ?_, ?_, ?_⟩
  · rw [k1, h1, List.append_assoc]
  · rw [k2, h2]; simp [Nat.add_assoc]
  · rw [k3, h3]; simp

theorem advances_setSdn (b : Bool) (s : State) : Advances s (setSdn b s) :=
  ⟨rfl, rfl, rfl, rfl, rfl, rfl, [.driveSdn b], rfl, rfl, rfl⟩

theorem advances_clearCache (s : State) : Advances s (clearCache s) := ⟨rfl, rfl, rfl, rfl, rfl, rfl, [], by simp, rfl, rfl⟩

theorem advances_loadBuffers (d : Display) (i : Nat) (s : State) : Advances s (loadBuffers d i s) :=
  ⟨rfl, rfl, rfl, rfl, rfl, rfl, [], by simp, rfl, rfl⟩

theorem advances_clearBuffers (s : State) : Advances s (clearBuffers s) :=
  ⟨rfl, rfl, rfl, rfl, rfl, rfl, [], by simp, rfl, rfl⟩

theorem advances_start (s : State) : Advances s (start s) := by
  rw [start_eq]; exact ⟨rfl, rfl, rfl, rfl, rfl, rfl, startEvents, rfl, rfl, rfl⟩

theorem advances_stop (s : State) : Advances s (stop s) := by
  rw [stop_eq]; exact ⟨rfl, rfl, rfl, rfl, rfl, rfl, stopEvents, rfl, rfl, rfl⟩

theorem advances_tx (b : Byte) (s : State) : Advances s (tx b s).2 := by
  rw [tx_eq]
  refine ⟨rfl, rfl, rfl, rfl, rfl, rfl, txEvents b (s.drawAt 0), rfl, ?_, ?_⟩ <;> rw [samplesOf_txEvents] <;> rfl

theorem advances_rx (sendAck : Bool) (s : State) : Advances s (rx sendAck s).2 := by
  rw [rx_eq]
  have h : ∀ d, (samplesOf (rxEvents sendAck d)).length = 8 := by
    intro d
    have : ∀ v, (samplesOf (rxCellEvents v)).length = 1 := by decide
    simp only [rxEvents, samplesOf_append, List.length_append, this]
    cases sendAck <;> decide
  refine ⟨rfl, rfl, rfl, rfl, rfl, rfl, rxEvents sendAck s.drawAt, rfl, ?_, ?_⟩ <;> rw [h] <;> rfl

theorem advances_ranPlan (plan : Plan) (s : State) : Advances s (ranPlan plan s).2 := by
  unfold ranPlan
  split
  · exact ⟨rfl, rfl, rfl, rfl, rfl, rfl, [], by simp, rfl, rfl⟩
  · refine ⟨rfl, rfl, rfl, rfl, rfl, rfl, framesEvents plan.1 s.drawAt, rfl, ?_, ?_⟩ <;> rw [samplesOf_framesEvents] <;> rfl

theorem advances_selectPage (addr page : Byte) (s : State) : Advances s (selectPage addr page s).2 := by
  rw [selectPage_eq]; exact advances_ranPlan _ _

theorem advances_writeReg (addr : Byte) (reg : RegId) (value : Byte) (s : State) :
    Advances s (writeReg addr reg value s).2 := by
  rw [writeReg_eq]; exact advances_ranPlan _ _

theorem advances_writeSeq (addr : Byte) (reg : RegId) (data : List Byte) (s : State) :
    Advances s (writeSeq addr reg data s).2 := by
  cases h : s.cfg.isGlobal reg with
  | true => rw [writeSeq_global _ _ _ _ h]; exact Advances.refl s
  | false => rw [writeSeq_paged _ _ _ _ h]; exact advances_ranPlan _ _

theorem advances_forEach {body : Nat → State → Bool × State} (h : ∀ i s, Advances s (body i s).2) (indices : List Nat)
    (ok : Bool) (s : State) : Advances s (forEach body indices ok s).2 := by
  induction indices generalizing ok s with
  | nil => exact Advances.refl s
  | cons i rest ih => exact (h i s).trans (ih _ _)

theorem advances_initChip (gain : Byte) (i : Nat) (s : State) : Advances s (initChip gain i s).2 :=
  (advances_writeReg _ _ _ _).trans (advances_writeReg _ _ _ _)

theorem advances_renderChip (d : Display) (i : Nat) (s : State) : Advances s (renderChip d i s).2 :=
  (((advances_loadBuffers d i s).trans (advances_writeSeq _ _ _ _)).trans (advances_writeSeq _ _ _ _)).trans
    (advances_clearBuffers _)

/-- What a command can do: it is refused, or it completes with a result after its body has advanced the state. -/
theorem exec_cases {i : Instr} {s t : State} (h : exec i s = .next t) :
    (∃ r, t = refuse r s) ∨ ∃ r u, Advances s u ∧ t = complete r u := by
  have hg : ∀ (c : Option RefusalReason) (body : State → Bool × State), (∀ u, Advances u (body u).2) →
      guarded c (fun u => completeBool (body u)) s = t → (∃ r, t = refuse r s) ∨ ∃ r u, Advances s u ∧ t = complete r u := by
    intro c body hb ht
    cases c with
    | some r => exact .inl ⟨r, ht.symm⟩
    | none => exact .inr ⟨_, _, hb s, ht.symm⟩
  cases i with
  | start => exact .inr ⟨_, _, advances_start s, (Host.Outcome.next.inj h).symm⟩
  | stop => exact .inr ⟨_, _, advances_stop s, (Host.Outcome.next.inj h).symm⟩
  | tx b => exact .inr ⟨_, _, advances_tx b s, (Host.Outcome.next.inj h).symm⟩
  | rx a => exact .inr ⟨_, _, advances_rx a s, (Host.Outcome.next.inj h).symm⟩
  | selectPage addr page => exact hg _ _ (advances_selectPage addr page) (Host.Outcome.next.inj h)
  | writeReg addr reg value => exact hg _ _ (advances_writeReg addr reg value) (Host.Outcome.next.inj h)
  | writeSeq addr reg data => exact hg _ _ (advances_writeSeq addr reg data) (Host.Outcome.next.inj h)
  | driverInit => exact .inr ⟨_, _, advances_clearCache s, (Host.Outcome.next.inj h).symm⟩
  | displayInit gain =>
    refine .inr ⟨_, _, ?_, (Host.Outcome.next.inj h).symm⟩
    exact ((advances_setSdn _ s).trans (advances_clearCache _)).trans (advances_forEach (advances_initChip gain) _ _ _)
  | render d =>
    have h : execRender d s = .next t := h
    unfold execRender at h
    split at h
    · exact .inr ⟨_, _, advances_forEach (advances_renderChip d) _ _ _, (Host.Outcome.next.inj h).symm⟩
    · cases h

/-- What a step can do: under well-formed parameters it completes a refused encoding, or runs the decoded command. -/
theorem step_cases {s t : State} (h : step s = .next t) :
    s.cfg.wellFormed = true ∧
      ((∃ r rest, decode s.cfg s.stream = .rejected r rest ∧ t = refuse r (s.withStream rest)) ∨
       ∃ i rest, decode s.cfg s.stream = .command i rest ∧ exec i (s.withStream rest) = .next t) := by
  unfold step at h
  split at h
  · refine ⟨‹_›, ?_⟩
    split at h
    · cases h
    · exact .inl ⟨_, _, ‹_›, (Host.Outcome.next.inj h).symm⟩
    · exact .inr ⟨_, _, ‹_›, h⟩
  · cases h

end Sys2Proof.Machine
end

