-- ==== Sys2Proof/Tests/Slice0.lean ====
section
/-! SUPPORT. The model's own tests. Expected results are those of 95_test_vectors (its vector names stand in the test names)
or are worked out by hand from the rule named. A `witness_` theorem meets the hypotheses of the obligation it is named after. -/

namespace Sys2Proof.Tests

open Sys2Proof.Machine

set_option Elab.async false

/-- The parameters of vector S3: one chip of 2 by 1 pixels. -/
def one : Params := Params.tp 2 1 2 1

/-- Geometry G4: four chips of 4 by 2 pixels. -/
def four : Params := Params.tp 16 2 4 2

/-- Two chips of 2 by 1 pixels, the second clipped to one column (vector S7). -/
def clipped : Params := Params.tp 3 1 2 1

/-- A reset state with a given cache and given draws. -/
def started (p : Params) (cache : List CacheEntry) (draws : List Bool) : State :=
  { State.resetWith p with cache := cache, draws := draws }

/-- A reset state with a given command stream. -/
def fed (p : Params) (bytes : List Byte) : State := { State.resetWith p with stream := bytes }

/-- A part of the next state, if there is one. -/
def look {α : Type} (part : State → α) : Host.Outcome State Fault Refusal → Option α
  | .next t => some (part t)
  | .fault _ => none
  | .refused _ => none

theorem next_of_look {o : Host.Outcome State Fault Refusal} (h : (look (fun _ => ()) o).isSome = true) : ∃ t, o = .next t := by
  cases o with
  | next t => exact ⟨t, rfl⟩
  | fault _ => cases h
  | refused _ => cases h

/-- Four entries that are not known. -/
def cold : List CacheEntry := [.unknown, .unknown, .unknown, .unknown]

/-- Only chip 0 is known to have selected a page. -/
def warm (page : Byte) : List CacheEntry := [.page page, .unknown, .unknown, .unknown]

/-- The two pixels of vector E4. -/
def twoPixels : Display := [⟨0x11223344#32, true, false, false⟩, ⟨0x000000FF#32, false, false, false⟩]

/-- A dark pixel. -/
def dark : Pixel := ⟨0#32, false, false, false⟩

/-- A lit pixel. -/
def lit : Pixel := ⟨0#32, true, false, false⟩

/-! ## Well-formed commands and parameter sets -/

theorem test_wellFormed_accepts :
    Instr.wellFormed four (.selectPage 0xBE#8 0x03#8) = true ∧ Instr.wellFormed four (.writeReg 0xA0#8 0xFFFD#16 2#8) = true ∧
    Instr.wellFormed one (.render twoPixels) = true := by decide +kernel

theorem test_wellFormed_refuses_odd_address : Instr.wellFormed four (.writeReg 0xA1#8 0x0301#16 0#8) = false := by decide +kernel

theorem test_wellFormed_refuses_unconfigured_address : Instr.wellFormed four (.writeSeq 0xA2#8 0x0100#16 []) = false := by
  decide +kernel

theorem test_wellFormed_refuses_global_page : Instr.wellFormed four (.selectPage 0xA0#8 0xFF#8) = false := by decide +kernel

theorem test_wellFormed_refuses_pixel_count : Instr.wellFormed one (.render [dark]) = false := by decide +kernel

theorem test_wellFormed_refuses_long_data :
    Instr.wellFormed four (.writeSeq 0xA0#8 0x0100#16 (List.replicate 65536 0#8)) = false := by
  simp only [Instr.wellFormed, Instr.encodable, List.length_replicate, decide_false, Bool.false_and, show ¬ (65536 ≤ 65535) by decide]

theorem test_parameters_accepted : one.wellFormed = true ∧ four.wellFormed = true ∧ clipped.wellFormed = true := by decide +kernel

/-- 00_scope R8: the types. -/
theorem test_parameters_refused_types :
    (Params.tp 0 1 2 1).wellFormed = false ∧ { one with pwmStride := 0 }.wellFormed = false ∧
    { one with onoffPair := [0, 4] }.wellFormed = false ∧ { one with pwmBase := [0] }.wellFormed = false := by decide +kernel

/-- 00_scope R9 items 1 and 2. -/
theorem test_parameters_refused_registers :
    { one with unlockReg := 0x00FE#16 }.wellFormed = false ∧ { one with pageselReg := 0x00FD#16 }.wellFormed = false ∧
    { one with configReg := 0xFF00#16 }.wellFormed = false ∧ { one with gccReg := 0xFF01#16 }.wellFormed = false ∧
    { one with pwmRegStart := 0xFF00#16 }.wellFormed = false ∧
    { one with onoffRegStart := 0xFF00#16 }.wellFormed = false := by decide +kernel

/-- V14 (colliding keys) and V16 (six chips for four entries); 00_scope R9 items 3 and 4. -/
theorem test_parameters_refused_chips :
    { Params.tp 8 2 4 2 with chipCs := [0x00#8, 0x04#8] }.wellFormed = false ∧ (Params.tp 5 3 2 2).wellFormed = false ∧
    { one with busChipCount := 5 }.wellFormed = false ∧ { one with chipCs := [0x80#8] }.wellFormed = false ∧
    { Params.tp 8 2 4 2 with chipCs := [0x00#8, 0x10#8] }.wellFormed = false := by decide +kernel

/-- 00_scope R9 items 5 and 6. -/
theorem test_parameters_refused_buffers :
    { one with pwmBase := [0, 2] }.wellFormed = false ∧ { one with pwmBase := [0, 0] }.wellFormed = false ∧
    { one with onoffByte := [0, 1] }.wellFormed = false := by decide +kernel

/-- 00_scope R9 item 7. -/
theorem test_parameters_refused_length : { one with onoffLen := 65536 }.wellFormed = false := by decide +kernel

/-! ## Decoding, one word at least for every command (30_encoding R79, R80) -/

theorem test_decode_E1_tx : decode one [0x03#8, 0xA0#8] = .command (.tx 0xA0#8) [] := by decide +kernel

theorem test_decode_E2_E3_writeSeq :
    decode one [0x07#8, 0xA0#8, 0x01#8, 0x00#8, 0x00#8, 0x03#8, 0x11#8, 0x22#8, 0x33#8] =
      .command (.writeSeq 0xA0#8 0x0100#16 [0x11#8, 0x22#8, 0x33#8]) [] ∧
    decode one [0x07#8, 0xA0#8, 0x01#8, 0x00#8, 0x00#8, 0x00#8, 0x02#8] =
      .command (.writeSeq 0xA0#8 0x0100#16 []) [0x02#8] := by decide +kernel

theorem test_decode_E4_render :
    decode one [0x0A#8, 0x11#8, 0x22#8, 0x33#8, 0x44#8, 0x01#8, 0x00#8, 0x00#8, 0x00#8, 0xFF#8, 0x00#8] =
      .command (.render twoPixels) [] := by decide +kernel

/-- 30_encoding R81: the flag bits of a record, one at a time. -/
theorem test_decode_pixel_flags :
    decodePixel 0#8 0#8 0#8 1#8 0b001#8 = some ⟨1#32, true, false, false⟩ ∧
    decodePixel 0#8 0#8 0#8 1#8 0b010#8 = some ⟨1#32, false, true, false⟩ ∧
    decodePixel 0#8 0#8 0#8 1#8 0b100#8 = some ⟨1#32, false, false, true⟩ := by decide +kernel

theorem test_decode_E5_E6_E7 :
    decode one [0x06#8, 0xA0#8, 0x03#8] = .rejected .truncated [] ∧
    decode one [0x00#8, 0x02#8] = .rejected .illegalOpcode [0x02#8] ∧
    decode one [0x04#8, 0x02#8, 0x02#8] = .rejected .badAckOperand [0x02#8] := by decide +kernel

theorem test_decode_X7_reserved_flags :
    decode one [0x0A#8, 0#8, 0#8, 0#8, 0#8, 0x08#8, 0#8, 0#8, 0#8, 0#8, 0#8, 0x02#8] =
      .rejected .reservedPixelFlags [0x02#8] := by decide +kernel

theorem test_decode_X8_illegal : decode one [0x0B#8] = .rejected .illegalOpcode [] := by decide +kernel

/-- Programs P1 to P6 name these words. -/
theorem test_decode_plain_words :
    decode one [0x01#8, 0x02#8] = .command .start [0x02#8] ∧ decode one [0x02#8] = .command .stop [] ∧
    decode one [0x04#8, 0x01#8] = .command (.rx true) [] ∧ decode one [0x04#8, 0x00#8] = .command (.rx false) [] ∧
    decode one [0x05#8, 0xA0#8, 0x03#8] = .command (.selectPage 0xA0#8 0x03#8) [] ∧
    decode one [0x06#8, 0xA0#8, 0x03#8, 0x01#8, 0x80#8] = .command (.writeReg 0xA0#8 0x0301#16 0x80#8) [] ∧
    decode one [0x08#8] = .command .driverInit [] ∧ decode one [0x09#8, 0x80#8] = .command (.displayInit 0x80#8) [] := by
  decide +kernel

/-- The host's numbering: the first byte is the least significant (WRITE_REG 0xA0, 0x0301, 0x80). -/
theorem test_decodeTableWord : decodeTableWord 40 0x800103A006 = some (.writeReg 0xA0#8 0x0301#16 0x80#8) := by decide +kernel

theorem test_withFetchWord :
    State.reset.withFetchWord 40 0x800103A006 = fed four [0x06#8, 0xA0#8, 0x03#8, 0x01#8, 0x80#8] ∧
    State.reset.withFetchWord 48 0x0100FDFFA007 = fed four [0x07#8, 0xA0#8, 0xFF#8, 0xFD#8, 0x00#8, 0x01#8, 0x00#8] ∧
    look (fun t => (t.cmdIndex, t.stream)) (step (State.reset.withFetchWord 8 0x08)) = some (1, []) := by decide +kernel

/-! ## Transport (95_test_vectors 3.1) -/

/-- The state after vector T1. -/
def afterStart (draws : List Bool) : State := { started one cold draws with sclOut := false, sdaOut := false }

theorem test_start_T1 :
    look (fun t => (t.trace, t.sclOut, t.sdaOut, t.results)) (exec .start (started one cold [])) =
      some ([.driveSda true, .driveScl true, .driveSda false, .driveScl false], false, false, [.none]) := by decide +kernel

theorem test_stop_T2 :
    look (fun t => (t.trace, t.sclOut, t.sdaOut, t.results)) (exec .stop (afterStart [])) =
      some ([.driveSda false, .driveScl true, .driveSda true], true, true, [.none]) := by decide +kernel

theorem test_tx_T4 :
    look (fun t => (t.trace, t.sclOut, t.sdaOut, t.results)) (exec (.tx 0xA0#8) (afterStart [false])) =
      some ([.driveSda true, .driveScl true, .driveScl false, .driveSda false, .driveScl true, .driveScl false,
        .driveSda true, .driveScl true, .driveScl false, .driveSda false, .driveScl true, .driveScl false,
        .driveSda false, .driveScl true, .driveScl false, .driveSda false, .driveScl true, .driveScl false,
        .driveSda false, .driveScl true, .driveScl false, .driveSda false, .driveScl true, .driveScl false,
        .driveSda true, .driveScl true, .sample false, .driveScl false], false, true, [.bool true]) := by decide +kernel

theorem test_tx_T5_nack :
    look (fun t => (t.trace.length, t.results)) (exec (.tx 0x00#8) (afterStart [true])) = some (28, [.bool false]) := by decide +kernel

theorem test_rx_T7 :
    look (fun t => (t.trace, t.results))
      (exec (.rx true) (afterStart [false, true, false, true, true, false, true, false])) =
      some ([.driveSda true, .driveScl true, .sample false, .driveScl false, .driveScl true, .sample true, .driveScl false,
        .driveScl true, .sample false, .driveScl false, .driveScl true, .sample true, .driveScl false,
        .driveScl true, .sample true, .driveScl false, .driveScl true, .sample false, .driveScl false,
        .driveScl true, .sample true, .driveScl false, .driveScl true, .sample false, .driveScl false,
        .driveSda false, .driveScl true, .driveScl false, .driveSda true], [.byte 0x5A#8]) := by decide +kernel

theorem test_rx_T8_nack :
    look (fun t => (t.trace.drop 25, t.sdaOut, t.results))
      (exec (.rx false) (afterStart [true, true, true, true, true, true, true, true])) =
      some ([.driveSda true, .driveScl true, .driveScl false, .driveSda true], true, [.byte 0xFF#8]) := by decide +kernel

/-! ## Chip driver (95_test_vectors 3.3) -/

/-- Six acknowledged bytes. -/
def acks : List Bool := [false, false, false, false, false, false]

/-- What a receiver on the wire reads of a trace. -/
def wireFrames (t : State) : List Frame := (Receiver.idle.read t.trace).frames

theorem test_selectPage_V1_V5 :
    look (fun t => (wireFrames t, t.trace.length, t.results, t.cache))
      (exec (.selectPage 0xA0#8 0x03#8) (started four cold acks)) =
      some ([[0xA0#8, 0xFE#8, 0xC5#8], [0xA0#8, 0xFD#8, 0x03#8]], 182, [.bool true], warm 0x03#8) ∧
    look (fun t => (t.trace.length, t.results, t.cache))
      (exec (.selectPage 0xA0#8 0x03#8) (started four cold (true :: acks))) =
      some (182, [.bool false], warm 0x03#8) := by decide +kernel

theorem test_selectPage_V2_hit :
    look (fun t => (t.trace, t.results, t.cache)) (exec (.selectPage 0xA0#8 0x03#8) (started four (warm 0x03#8) [])) =
      some ([], [.bool true], warm 0x03#8) := by decide +kernel

theorem test_writeReg_V6_global :
    look (fun t => (wireFrames t, t.trace.length, t.results, t.cache))
      (exec (.writeReg 0xA0#8 0xFFFD#16 0x02#8) (started four cold acks)) =
      some ([[0xA0#8, 0xFD#8, 0x02#8]], 91, [.bool true], cold) := by decide +kernel

theorem test_writeReg_V7_V7b :
    look (fun t => (wireFrames t, t.cache))
      (exec (.writeReg 0xA0#8 0x0301#16 0x80#8) (started four cold (acks ++ acks))) =
      some ([[0xA0#8, 0xFE#8, 0xC5#8], [0xA0#8, 0xFD#8, 0x03#8], [0xA0#8, 0x01#8, 0x80#8]], warm 0x03#8) ∧
    look (fun t => (wireFrames t, t.cache))
      (exec (.writeReg 0xA0#8 0x0301#16 0x80#8) (started four (warm 0x03#8) acks)) =
      some ([[0xA0#8, 0x01#8, 0x80#8]], warm 0x03#8) := by decide +kernel

theorem test_writeSeq_V9_V10 :
    look (fun t => (t.trace, t.results, t.cache)) (exec (.writeSeq 0xA0#8 0xFFFD#16 [0x01#8]) (started four cold [])) =
      some ([], [.bool false], cold) ∧
    look (fun t => (wireFrames t, t.trace.length)) (exec (.writeSeq 0xA0#8 0x0010#16 []) (started four (warm 0#8) acks)) =
      some ([[0xA0#8, 0x10#8]], 63) := by decide +kernel

theorem test_writeSeq_V11_nack :
    look (fun t => (wireFrames t, t.trace.length, t.results, t.cache))
      (exec (.writeSeq 0xA0#8 0x0100#16 [1#8, 2#8, 3#8]) (started four (warm 0x01#8) [false, false, true, false, false])) =
      some ([[0xA0#8, 0x00#8, 1#8, 2#8, 3#8]], 147, [.bool false], warm 0x01#8) := by decide +kernel

theorem test_driverInit_V12 :
    look (fun t => (t.trace, t.results, t.cache))
      (exec .driverInit (started four [.page 3#8, .page 1#8, .unknown, .page 0#8] [])) = some ([], [.none], cold) := by decide +kernel

/-- The first part of program P5. -/
theorem test_displayInit_P5 :
    look (fun t => (wireFrames t, t.trace.length, t.sdnOut, t.results))
      (exec (.displayInit 0x80#8) (started one cold (acks ++ acks))) =
      some ([[0xA0#8, 0xFE#8, 0xC5#8], [0xA0#8, 0xFD#8, 0x03#8], [0xA0#8, 0x00#8, 0x41#8], [0xA0#8, 0x01#8, 0x80#8]], 365,
        .driven true, [.bool true]) := by decide +kernel

/-- V13: the second chip is a sync slave. -/
theorem test_displayInit_V13_roles :
    four.cfgByte 0 = 0x41#8 ∧ four.cfgByte 1 = 0x81#8 ∧ four.cfgByte 3 = 0x81#8 := by decide +kernel

/-- W1 and V15: address bytes and keys. -/
theorem test_addresses_and_keys :
    (List.range 4).map four.addr8 = [0xA0#8, 0xAA#8, 0xB4#8, 0xBE#8] ∧
    { four with chipCs := [0x03#8, 0x10#8] }.addr8 0 = 0xA6#8 ∧ { four with chipCs := [0x03#8, 0x10#8] }.addr8 1 = 0xA0#8 ∧
    [0xA0#8, 0xAA#8, 0xB4#8, 0xBE#8].map four.key = [0, 1, 2, 3] := by decide +kernel

/-! ## Serializer (95_test_vectors 3.4) -/

theorem test_regions_S1_S2 :
    (let p := Params.tp 20 5 16 5
     [p.nx, p.ny, p.firstCol 0, p.lastCol 0, p.firstCol 1, p.lastCol 1, p.firstRow 1, p.lastRow 1]) =
      [2, 1, 0, 15, 16, 19, 0, 4] ∧
    (let p := Params.tp 3 3 2 2
     (List.range 4).map fun i => [p.firstCol i, p.lastCol i, p.firstRow i, p.lastRow i]) =
      [[0, 1, 0, 1], [2, 2, 0, 1], [0, 1, 2, 2], [2, 2, 2, 2]] := by decide +kernel

theorem test_render_S3 :
    look (fun t => (t.results, t.cache, t.pwmBuf.length + t.onoffBuf.length))
      (exec (.render twoPixels) (started one cold (List.replicate 26 false))) =
      some ([.bool true], warm 0x00#8, 0) := by decide +kernel

/-- The frames of S3; that they are what RENDER sends is the obligation RenderWritesEveryChip. -/
theorem test_render_S3_frames :
    renderFrames one twoPixels .unknown 0 =
      [[0xA0#8, 0xFE#8, 0xC5#8], [0xA0#8, 0xFD#8, 0x01#8],
        [0xA0#8, 0x00#8, 0x44#8, 0xFF#8, 0x33#8, 0x00#8, 0x22#8, 0x00#8, 0x11#8, 0x00#8],
        [0xA0#8, 0xFE#8, 0xC5#8], [0xA0#8, 0xFD#8, 0x00#8], [0xA0#8, 0x00#8, 0x03#8, 0x03#8]] := by decide +kernel

theorem test_serialize_S4_clamp :
    Memory.bytes (serializePwm { one with pwmScheme := .clampReplicate }
      [⟨0x1234#32, true, false, false⟩, ⟨0x7F#32, true, false, false⟩] 0) 8 =
      [0xFF#8, 0x7F#8, 0xFF#8, 0x7F#8, 0xFF#8, 0x7F#8, 0xFF#8, 0x7F#8] := by decide +kernel

theorem test_serialize_S5_gate :
    Memory.bytes (serializePwm one [⟨0xAA#32, false, false, false⟩, lit] 0) 8 = [0xAA#8, 0#8, 0#8, 0#8, 0#8, 0#8, 0#8, 0#8] ∧
    Memory.bytes (serializeOnoff one [⟨0xAA#32, false, false, false⟩, lit] 0) 2 = [0x0C#8, 0x0C#8] := by decide +kernel

/-- S6: all gated, and only pixel (2,1), which is element 2*2 + 1 of the Display. -/
theorem test_serialize_S6 :
    Memory.bytes (serializeOnoff (Params.tp 4 2 4 2) (List.replicate 8 lit) 0) 4 = [0xFF#8, 0xFF#8, 0xFF#8, 0xFF#8] ∧
    Memory.bytes (serializeOnoff (Params.tp 4 2 4 2) [dark, dark, dark, dark, dark, lit, dark, dark] 0) 4 =
      [0#8, 0#8, 0x30#8, 0x30#8] := by decide +kernel

theorem test_serialize_S7_clipped :
    Memory.bytes (serializePwm clipped [dark, dark, ⟨0x01020304#32, true, false, false⟩] 1) 8 =
      [4#8, 0#8, 3#8, 0#8, 2#8, 0#8, 1#8, 0#8] ∧
    Memory.bytes (serializeOnoff clipped [dark, dark, ⟨0x01020304#32, true, false, false⟩] 1) 2 = [3#8, 3#8] := by decide +kernel

theorem test_serialize_S8 :
    Memory.bytes (serializeOnoff (Params.tp 8 1 8 1) [lit, dark, dark, dark, dark, lit, dark, dark] 0) 4 =
      [0x03#8, 0x0C#8, 0x03#8, 0x0C#8] := by decide +kernel

/-! ## Refusals (95_test_vectors X1 to X8), one step each -/

/-- The step completes a command refused for `reason`, and decoding goes on at `rest`. -/
def refusedStep (bytes : List Byte) (reason : RefusalReason) (rest : List Byte) : Bool :=
  match step (fed four bytes) with
  | .next t => decide (t = { fed four rest with refusedMark := some reason, results := [.none], cmdIndex := 1 })
  | .fault _ => false
  | .refused _ => false

theorem test_refusals_X1_to_X4 :
    refusedStep [0x05#8, 0xA1#8, 0x03#8] .oddAddress [] = true ∧
    refusedStep [0x05#8, 0xA2#8, 0x03#8] .unconfiguredAddress [] = true ∧
    refusedStep [0x05#8, 0xA0#8, 0xFF#8] .globalPage [] = true ∧
    refusedStep [0x05#8, 0xA1#8, 0xFF#8] .oddAddress [] = true := by decide +kernel

theorem test_refusals_X5_to_X8 :
    refusedStep [0x06#8, 0xA2#8, 0xFF#8, 0xFE#8, 0xC5#8] .unconfiguredAddress [] = true ∧
    refusedStep [0x07#8, 0xA3#8, 0xFF#8, 0xFD#8, 0#8, 0#8] .oddAddress [] = true ∧
    refusedStep [0x0B#8, 0x02#8] .illegalOpcode [0x02#8] = true ∧ refusedStep [0x03#8] .truncated [] = true := by decide +kernel

/-- Program P4: the first refusal is kept. -/
theorem test_refusal_P4_first_kept :
    (runSteps 4 (fed four [0x07#8, 0xA0#8, 0xFF#8, 0xFD#8, 0#8, 1#8, 1#8, 0x05#8, 0xA1#8, 0x03#8, 0x0B#8, 0x08#8])).refusedMark =
      some .oddAddress := by decide +kernel

/-! ## Spellings (30_encoding R85, R86) -/

theorem test_assembly :
    assemblyLine [] (.writeSeq 0xA0#8 0xFFFD#16 [0x01#8, 0xAB#8]) = "write_seq 0xA0, 0xFFFD, [0x01, 0xAB]".toList ∧
    assemblyLine [] (.rx false) = "rx nack".toList ∧
    assemblyLine [] (.writeReg 0xA0#8 0x0300#16 0x41#8) = "write_reg 0xA0, 0x0300, 0x41".toList := by decide +kernel

theorem test_pseudo_P6 : (expandPseudo one (.pageWrite 0xA0#8 0x01#8)).map encode = [[0x06#8, 0xA0#8, 0xFF#8, 0xFD#8, 0x01#8]] := by
  decide +kernel

/-! ## Witnesses of the obligations' hypotheses -/

/-- A state of vector S3's parameters at reset meets the invariant, whatever its cache of four entries, stream, draws and
first refusal. -/
theorem inv_one (cache : List CacheEntry) (stream : List Byte) (draws : List Bool) (mark : Option RefusalReason)
    (h : cache.length = 4) :
    Inv { State.resetWith one with cache := cache, stream := stream, draws := draws, refusedMark := mark } :=
  have hp : one.wellFormed = true := by decide +kernel
  ⟨hp, h, rfl, rfl, rfl, fun _ => rfl, rfl, rfl⟩

/-- For ResetMeetsBoundaryInvariant, IllFormedParametersHaveNoRun, EveryChipHasItsOwnKey, RegionsPartitionGrid,
RenderFaultsOnMissingBufferByte: parameter sets of both kinds, at one and at four chips. -/
theorem witness_parameter_sets :
    one.wellFormed = true ∧ four.wellFormed = true ∧ one.nchips = 1 ∧ four.nchips = 4 ∧
    (Params.tp 5 3 2 2).wellFormed = false ∧ (fed (Params.tp 5 3 2 2) [0x01#8]).cfg.wellFormed = false := by decide +kernel

/-- Also for StepCountsOneCommand, ParametersNeverChange and TraceOnlyGrows: a step that answers a next state. -/
theorem witness_StepKeepsBoundaryInvariant : ∃ s t : State, Inv s ∧ step s = .next t := by
  obtain ⟨t, ht⟩ : ∃ t, step (fed one [0x01#8]) = .next t := next_of_look (by decide +kernel)
  exact ⟨_, t, inv_one (List.replicate 4 .unknown) [0x01#8] [] none rfl, ht⟩

theorem witness_StepRunsDecodedCommand :
    (fed one [0x03#8, 0xA0#8, 0x02#8]).cfg.wellFormed = true ∧
    decode (fed one [0x03#8, 0xA0#8, 0x02#8]).cfg (fed one [0x03#8, 0xA0#8, 0x02#8]).stream =
      .command (.tx 0xA0#8) [0x02#8] := by decide +kernel

theorem witness_StepCompletesRefusedEncodings :
    (fed one [0x0B#8, 0x02#8]).cfg.wellFormed = true ∧
    decode (fed one [0x0B#8, 0x02#8]).cfg (fed one [0x0B#8, 0x02#8]).stream = .rejected .illegalOpcode [0x02#8] := by
  decide +kernel

/-- Also for RunEndsWithStreamExhausted, whose last clause the empty stream meets. -/
theorem witness_NonemptyStreamAlwaysSteps :
    (fed one [0x08#8]).cfg.wellFormed = true ∧ (fed one [0x08#8]).stream ≠ [] ∧ (fed one []).stream = [] := by decide +kernel

/-- A step with each mark set, and a command's next state. -/
theorem witness_MarksAreStickyAndIgnored :
    (∃ t, step { fed one [0x08#8] with refusedMark := some .truncated } = .next t) ∧
    (∃ t, step { fed one [0x08#8] with faultMark := some .busContention } = .next t) ∧
    ∃ t, exec .driverInit (fed one []) = .next t :=
  ⟨next_of_look (by decide +kernel), next_of_look (by decide +kernel), _, rfl⟩

/-- For OnlyDisplayInitDrivesSdn, BoolResultMeansAckedAndNotRejected, AcknowledgementsNeverChangeTraffic and
DriverCommandsLeaveBusIdle: every command answers a next
state from an idle bus. -/
theorem witness_every_command_completes :
    (fed one []).Idle ∧
    ∀ i ∈ [Instr.start, .stop, .tx 0xA0#8, .rx true, .selectPage 0xA0#8 0x03#8, .writeReg 0xA0#8 0x0301#16 0x80#8,
      .writeSeq 0xA0#8 0x0100#16 [1#8], .driverInit, .displayInit 0x80#8, .render twoPixels],
      ∃ t, exec i (fed one []) = .next t := by
  refine ⟨by decide, fun i hi => next_of_look ?_⟩
  revert i
  decide +kernel

/-- Every kind of cache change: a select, a paged write, a paged burst, an initialisation that forgets, one that selects, and a
frame. -/
theorem witness_CacheChangesOnlyBySelectOrInit :
    (∀ cache : List CacheEntry, cache.length = 4 →
      Inv { State.resetWith one with cache := cache, stream := [], draws := [], refusedMark := none }) ∧
    ∀ c ∈ [(Instr.selectPage 0xA0#8 0x03#8, cold), (.writeReg 0xA0#8 0x0301#16 0x80#8, cold),
        (.writeSeq 0xA0#8 0x0100#16 [1#8], cold), (.driverInit, warm 3#8), (.displayInit 0x80#8, cold),
        (.render twoPixels, cold)],
      look (fun t => decide (t.cacheAt 0 ≠ c.2.getD 0 .unknown)) (exec c.1 (started one c.2 [])) = some true :=
  ⟨fun cache h => inv_one cache [] [] none h, by decide +kernel⟩

/-- For TransportConditionsOnTheWire, ReceiveBuildsByteMsbFirst and WireReadsFramesBack: a receiver at an idle bus, one at a low SCL, and operand bytes next to the legal ones. -/
theorem witness_receivers :
    (Receiver.idle.scl = true ∧ Receiver.idle.sda = true ∧ Receiver.idle.openBits = none) ∧
    (Receiver.idle.read startEvents).scl = false ∧ (0x02#8 : Byte) ≠ 0x00#8 ∧ (0x02#8 : Byte) ≠ 0x01#8 := by decide

/-- For SelectPageHitOrExchange, WriteRegSelectsThenWrites, WriteSeqRejectsGlobalOrBursts and PseudoWritesBypassCache: an odd
address, an even one that is not configured, the last configured one, a global and a paged register, a hit and a miss. -/
theorem witness_driver_clauses :
    (0xBF#8 : Byte).getLsbD 0 = true ∧ (0xA2#8 : Byte).getLsbD 0 = false ∧ (∀ i < four.nchips, four.addr8 i ≠ 0xA2#8) ∧
    3 < four.nchips ∧ four.addr8 3 = 0xBE#8 ∧
    (0xFF#8 = four.globalMarker ∧ (0xFE#8 : Byte) ≠ four.globalMarker) ∧
    (regPage 0xFF00#16 = four.globalMarker ∧ regPage 0xFE00#16 ≠ four.globalMarker) ∧
    (started four [.unknown, .unknown, .unknown, .page 0xFE#8] []).cacheAt (four.key 0xBE#8) = .page (regPage 0xFE00#16) ∧
    (started four cold []).cacheAt (four.key 0xBE#8) ≠ .page (regPage 0xFE00#16) := by decide +kernel

/-- A command that answers true, and the rejection that answers false without an event, for BoolResultMeansAckedAndNotRejected
and GlobalBurstIsTheOnlyRejection. -/
theorem witness_bool_results :
    one.wellFormed = true ∧ (∃ i < one.nchips, one.addr8 i = 0xA0#8) ∧ regPage 0xFFFD#16 = one.globalMarker ∧
    look (fun t => t.results) (exec (.selectPage 0xA0#8 0x03#8) (started one (warm 3#8) [])) = some ([] ++ [.bool true]) ∧
    look (fun t => (t.results, t.trace)) (exec (.writeSeq 0xA0#8 0xFFFD#16 [1#8]) (started one cold [])) =
      some ([] ++ [.bool false], []) :=
  ⟨by decide +kernel, ⟨0, by decide +kernel⟩, by decide +kernel, by decide +kernel, by decide +kernel⟩

/-- For DisplayInitConfiguresEveryChip, DisplayInitTransactionCount and RenderWritesEveryChip. -/
theorem witness_display_commands :
    (fed one []).cfg.wellFormed = true ∧ (fed one []).cache.length = (fed one []).cfg.busChipCount ∧
    (∃ t, exec (.displayInit 0x80#8) (fed one []) = .next t) ∧ ∃ t, exec (.render twoPixels) (fed one []) = .next t :=
  ⟨by decide +kernel, rfl, ⟨_, rfl⟩, next_of_look (by decide +kernel)⟩

/-- The second record of a Display of two pixels has the lowest reserved flag set. -/
theorem witness_RenderWritesEveryChip_reserved :
    (let rest : List Byte := [0#8, 0#8, 0#8, 0#8, 0#8, 0#8, 0#8, 0#8, 0#8, 0x08#8]
     5 * one.pixelCount ≤ rest.length ∧ 1 < one.pixelCount ∧ rest[5 * 1 + 4]? = some 0x08#8 ∧
       (0x08#8 : Byte).extractLsb' 3 5 ≠ 0#5) := by decide +kernel

/-- For DriverCommandsLeaveBusIdle: from a bus that a raw START made busy, a miss, a write, a paged burst, DISPLAY_INIT and RENDER
end with an idle bus; a hit, a global burst, a refused command and DRIVER_INIT end with both lines low as they were. -/
theorem witness_DriverCommandsLeaveBusIdle :
    (∀ c ∈ [(Instr.selectPage 0xA0#8 0x03#8, cold), (.writeReg 0xA0#8 0x0301#16 0x80#8, cold),
        (.writeSeq 0xA0#8 0x0100#16 [], cold), (.displayInit 0x80#8, cold), (.render twoPixels, cold)],
      operandCheck one c.1 = none ∧
      look (fun t => (t.sclOut, t.sdaOut)) (exec c.1 { afterStart [] with cache := c.2 }) = some (true, true)) ∧
    ∀ c ∈ [(Instr.selectPage 0xA0#8 0x03#8, warm 3#8), (.writeSeq 0xA0#8 0xFFFD#16 [], cold),
        (.writeReg 0xA1#8 0x0301#16 0x80#8, cold), (.driverInit, cold)],
      look (fun t => (t.sclOut, t.sdaOut)) (exec c.1 { afterStart [] with cache := c.2 }) = some (false, false) := by
  decide +kernel

/-- For RenderTransactionCount: four chips on different pages, the first entry at the PWM page and the others not. -/
theorem witness_RenderTransactionCount_mixed :
    (∃ t, exec (.render (List.replicate 32 dark)) (started four (warm 1#8) []) = .next t) ∧
    (started four (warm 1#8) []).cacheAt (four.key (four.addr8 0)) = .page (regPage four.pwmRegStart) ∧
    (started four (warm 1#8) []).cacheAt (four.key (four.addr8 3)) ≠ .page (regPage four.pwmRegStart) ∧
    (started four (warm 1#8) []).cache.length = four.busChipCount ∧ 3 < four.nchips :=
  ⟨next_of_look (by decide +kernel), by decide +kernel, by decide +kernel, by decide +kernel, by decide +kernel⟩

/-- Two tables on different pages from a cold cache; two tables on one page, cold and warm. -/
theorem witness_RenderTransactionCount :
    (let shared : Params := { one with onoffRegStart := 0x0180#16 }
     one.wellFormed = true ∧ regPage one.pwmRegStart ≠ regPage one.onoffRegStart ∧
     (∀ i < one.nchips, (started one cold []).cacheAt (one.key (one.addr8 i)) ≠ .page (regPage one.pwmRegStart)) ∧
     shared.wellFormed = true ∧ regPage shared.pwmRegStart = regPage shared.onoffRegStart ∧
     (∀ i < shared.nchips, (started shared cold []).cacheAt (shared.key (shared.addr8 i)) ≠ .page (regPage shared.pwmRegStart)) ∧
     ∀ i < shared.nchips,
       (started shared (warm 1#8) []).cacheAt (shared.key (shared.addr8 i)) = .page (regPage shared.pwmRegStart)) ∧
    (∃ t, exec (.render twoPixels) (started one cold []) = .next t) ∧
    (∃ t, exec (.render twoPixels) (started { one with onoffRegStart := 0x0180#16 } cold []) = .next t) ∧
    ∃ t, exec (.render twoPixels) (started { one with onoffRegStart := 0x0180#16 } (warm 1#8) []) = .next t :=
  ⟨by decide +kernel, next_of_look (by decide +kernel), next_of_look (by decide +kernel), next_of_look (by decide +kernel)⟩

/-- A state in which the cache agrees with the wire because chip 0 has just been told to select page 3, and a paged write. -/
theorem witness_PageCacheAgreesWithWire :
    (let s : State := { started one (warm 3#8) [] with
       trace := framesEvents (selectFrames one 0xA0#8 3#8) fun _ => false }
     s.WireAtRest ∧ s.Coherent ∧ s.toldPage 0 = some 3#8 ∧ leavesPageselAlone s.cfg (.writeReg 0xA0#8 0x0101#16 0x80#8) = true) ∧
    (∃ t, exec (.writeReg 0xA0#8 0x0101#16 0x80#8) { started one (warm 3#8) [] with
      trace := framesEvents (selectFrames one 0xA0#8 3#8) fun _ => false } = .next t) ∧
    Inv { started one (warm 3#8) [] with trace := framesEvents (selectFrames one 0xA0#8 3#8) fun _ => false } := by
  refine ⟨⟨by decide +kernel, fun i hi => .inr ⟨3#8, ?_, ?_⟩, by decide +kernel, by decide +kernel⟩,
    next_of_look (by decide +kernel), by decide +kernel, rfl, rfl, rfl, rfl, fun _ => rfl, rfl, rfl⟩
  · have h : ∀ i < one.nchips, (warm 3#8).getD (one.key (one.addr8 i)) .unknown = .page 3#8 := by decide +kernel
    exact h i hi
  · have h : ∀ i < one.nchips, pageToldTo one i (Receiver.idle.read
        (framesEvents (selectFrames one 0xA0#8 3#8) fun _ => false)).frames = some 3#8 := by decide +kernel
    exact h i hi

/-- The largest chip-select value, and one with bits 6 and 4 set. -/
theorem witness_AddressByteFields :
    four.chipCs.getD 3 0#8 < 0x80#8 ∧ { four with chipCs := [0x7F#8] }.chipCs.getD 0 0#8 < 0x80#8 ∧
    ([0x2F#8] : List Byte) = [0x7F#8].map (fun cs => cs &&& 0xAF#8) := by decide +kernel

/-- For RegionsPartitionGrid: the last pixel of a clipped grid, and the last chip. -/
theorem witness_RegionsPartitionGrid :
    clipped.wellFormed = true ∧ 2 < clipped.width ∧ 0 < clipped.height ∧ 1 < clipped.nchips ∧ clipped.inRegion 1 2 0 := by
  decide +kernel

/-- The last position and slot of a clipped chip under both schemes, and a byte that is no slot of a covered position. -/
theorem witness_PwmBufferHoldsIntensities :
    clipped.wellFormed = true ∧ 1 < clipped.nchips ∧ [dark, dark, lit].length = clipped.pixelCount ∧
    clipped.firstCol 1 + 0 ≤ clipped.lastCol 1 ∧ clipped.firstRow 1 + 0 ≤ clipped.lastRow 1 ∧
    clipped.pwmScheme = .fourByte ∧ { clipped with pwmScheme := .clampReplicate }.wellFormed = true ∧
    ∀ k < 4, 1 ≠ clipped.pwmSlot 0 0 k := by decide +kernel

/-- The last bit of a byte, and a lit pixel that sets it. -/
theorem witness_OnoffBufferMarksGatedPixels :
    (let p := Params.tp 4 2 4 2
     0 < p.nchips ∧ 7 < 8 ∧ p.firstCol 0 + 3 ≤ p.lastCol 0 ∧ p.firstRow 0 + 1 ≤ p.lastRow 0 ∧
     (List.replicate 8 lit)[(p.firstCol 0 + 3) * p.height + (p.firstRow 0 + 1)]? = some lit ∧
     2 * p.onoffPairAt 3 1 + 1 = 7 ∧ (Memory.read (serializeOnoff p (List.replicate 8 lit) 0) 2).getLsbD 7 = true) := by
  decide +kernel

theorem witness_PixelOrderDoesNotMatter :
    four.wellFormed = true ∧ 3 < four.nchips ∧ (four.covered 3).reverse.Perm (four.covered 3) :=
  ⟨by decide +kernel, by decide +kernel, List.reverse_perm _⟩

/-- Two Displays that differ in their diagnostic flags alone. -/
theorem witness_DiagnosticFlagsAreIgnored :
    [(⟨7#32, true, true, false⟩ : Pixel)].map (fun px => (px.intensity, px.gate)) =
      [(⟨7#32, true, false, true⟩ : Pixel)].map (fun px => (px.intensity, px.gate)) := by decide

/-- A parameter set with a PWM slot, and one with an on/off byte, just outside its buffer; a well-formed one completes
(witness_display_commands). -/
theorem witness_RenderFaultsOnMissingBufferByte :
    (let p : Params := { one with pwmBase := [0, 2] }
     1 < p.chipWidth ∧ 0 < p.chipHeight ∧ p.pwmLen ≤ p.pwmSlot 1 0 3) ∧
    (let p : Params := { one with onoffByte := [0, 1] }
     1 < p.chipWidth ∧ 0 < p.chipHeight ∧ p.onoffLen ≤ p.onoffAt 1 0 + p.onoffRowStride) := by decide +kernel

/-- Also the first mark of a fault, and an agent stepped inside a critical section. -/
theorem witness_OnlyAnotherAgentRaisesFault :
    (fed one []).faultMark = none ∧ { fed one [] with faultMark := some .busContention }.faultMark = some .busContention ∧
    (∃ t, step (fed one [0x01#8]) = .next t) ∧ { fed one [] with inCritical := true }.inCritical = true ∧
    (fed one []).inCritical = false :=
  ⟨rfl, rfl, next_of_look (by decide +kernel), rfl, rfl⟩

/-- 60_exceptions R159: an agent whose semantics is to pull SDA low does so outside a transaction only. -/
theorem test_otherAgent :
    (let pull : State → Host.Outcome State Fault Refusal := fun s => .next { s with sdaOut := false }
     look (fun t => (t.sdaOut, t.faultMark)) (otherAgentStep pull (fed one [])) = some (false, none) ∧
     look (fun t => (t.sdaOut, t.faultMark)) (otherAgentStep pull { fed one [] with inCritical := true }) =
       some (true, some .busContention)) := by decide +kernel

/-- Also for IllegalAndTruncatedEncodings: the longest data a length field holds is spellable, an empty burst too, and a frame of
two pixels; their encodings can be cut short. -/
theorem witness_DecodeGivesEncodedCommand :
    (Instr.writeSeq 0xA0#8 0x0100#16 (List.replicate 65535 0#8)).encodable one = true ∧
    (Instr.writeSeq 0xA0#8 0x0100#16 []).encodable one = true ∧ (Instr.render twoPixels).encodable one = true ∧
    5 < (encode (.writeSeq 0xA0#8 0x0100#16 [])).length ∧ 10 < (encode (.render twoPixels)).length ∧
    0x0B#8 ≤ (0x0B#8 : Byte) := by
  refine ⟨?_, by decide +kernel⟩
  simp only [Instr.encodable, List.length_replicate, decide_eq_true_eq, Nat.le_refl]

theorem witness_DecodedBytesAreTheEncoding : decode one [0x04#8, 0x01#8, 0x02#8] = .command (.rx true) [0x02#8] := by
  decide +kernel

/-- For PseudoWritesBypassCache. -/
theorem witness_PseudoWritesBypassCache : four.wellFormed = true ∧ ∃ i < four.nchips, four.addr8 i = 0xBE#8 :=
  ⟨by decide +kernel, 3, by decide +kernel, by decide +kernel⟩

end Sys2Proof.Tests
end

section
/-! PROOFS. The scope of a run (00_scope): a step runs the decoded command, no command changes a parameter, when RENDER faults,
and how a run ends. -/

/-! ## Parameter sets that name a missing scratch-buffer byte -/

namespace Sys2Proof.Params

theorem mem_byteIndices_iff (k : Nat) : k ∈ [0, 1, 2, 3] ↔ k < 4 := by
  simp only [List.mem_cons, List.not_mem_nil, or_false]
  omega

/-- The index ranges of 00_scope R9 items 5 and 6 fail at a native position. -/
theorem not_indicesFit_iff (p : Params) :
    ¬ p.IndicesFit ↔ ∃ cx cy, cx < p.chipWidth ∧ cy < p.chipHeight ∧
      ((∃ k < 4, p.pwmLen ≤ p.pwmSlot cx cy k) ∨ p.onoffLen ≤ p.onoffAt cx cy + p.onoffRowStride) := by
  simp only [IndicesFit, Prod.forall, mem_nativePositions, mem_byteIndices_iff, not_forall, exists_prop, and_assoc, not_and_or,
    not_lt]

end Sys2Proof.Params

/-! ## What a decoding leaves of the stream -/

namespace Sys2Proof

/-- The decoding is a command or a refusal, not the end of the stream, and at most `n` bytes come after it. -/
def Decoded.LeavesAtMost (n : Nat) : Decoded → Prop
  | .command _ rest => rest.length ≤ n
  | .rejected _ rest => rest.length ≤ n
  | .endOfStream => False

@[simp] theorem Decoded.leavesAtMost_command (n : Nat) (i : Instr) (rest : List Byte) :
    (Decoded.command i rest).LeavesAtMost n ↔ rest.length ≤ n := Iff.rfl

@[simp] theorem Decoded.leavesAtMost_rejected (n : Nat) (r : RefusalReason) (rest : List Byte) :
    (Decoded.rejected r rest).LeavesAtMost n ↔ rest.length ≤ n := Iff.rfl

@[simp] theorem Decoded.not_leavesAtMost_endOfStream (n : Nat) : ¬ Decoded.endOfStream.LeavesAtMost n := id

theorem decodeRx_leavesAtMost {n : Nat} {rest : List Byte} (b : Byte) (h : rest.length ≤ n) :
    (decodeRx b rest).LeavesAtMost n := by
  unfold decodeRx
  split
  · exact h
  · split <;> exact h

theorem decodeSeq_leavesAtMost {n : Nat} {rest : List Byte} (addr : Byte) (reg : RegId) (len : Nat) (h : rest.length ≤ n) :
    (decodeSeq addr reg len rest).LeavesAtMost n := by
  unfold decodeSeq
  split
  · exact Nat.zero_le n
  · simp only [Decoded.leavesAtMost_command, List.length_drop]
    omega

theorem decodeRender_leavesAtMost {n : Nat} {rest : List Byte} (pixels : Nat) (h : rest.length ≤ n) :
    (decodeRender pixels rest).LeavesAtMost n := by
  unfold decodeRender
  split
  · exact Nat.zero_le n
  · split <;> simp only [Decoded.leavesAtMost_command, Decoded.leavesAtMost_rejected, List.length_drop] <;> omega

/-- Past an opcode byte the decoder always answers, and it takes operands off the front (30_encoding R82, R83). -/
theorem decodeOperands_leavesAtMost (p : Params) (opcode : Nat) (bytes : List Byte) :
    (decodeOperands p opcode bytes).LeavesAtMost bytes.length := by
  unfold decodeOperands
  split <;> simp [decodeRx_leavesAtMost, decodeSeq_leavesAtMost, decodeRender_leavesAtMost, Nat.add_assoc]

/-- Decoding a nonempty stream takes at least its opcode byte. -/
theorem decode_cons_leavesAtMost (p : Params) (op : Byte) (rest : List Byte) :
    (decode p (op :: rest)).LeavesAtMost rest.length :=
  decodeOperands_leavesAtMost p op.toNat rest

end Sys2Proof

namespace Sys2Proof.Machine

/-! ## The step, one equation for each decoding -/

theorem step_of_command {s : State} {i : Instr} {rest : List Byte} (hwf : s.cfg.wellFormed = true)
    (hd : decode s.cfg s.stream = .command i rest) : step s = exec i (s.withStream rest) := by
  simp only [step, hwf, hd, if_true]

theorem step_of_rejected {s : State} {r : RefusalReason} {rest : List Byte} (hwf : s.cfg.wellFormed = true)
    (hd : decode s.cfg s.stream = .rejected r rest) : step s = .next (refuse r (s.withStream rest)) := by
  simp only [step, hwf, hd, if_true]

theorem step_of_stream_nil {s : State} (hwf : s.cfg.wellFormed = true) (hs : s.stream = []) :
    step s = .refused .endOfStream := by
  simp only [step, hwf, hs, decode, if_true]

/-- Settles O4: the step's equation at a decoded command. -/
theorem stepRunsDecodedCommand : Obligations.StepRunsDecodedCommand :=
  fun _ _ _ hwf hd => step_of_command hwf hd

/-! ## What a command leaves unchanged -/

theorem exec_cfg {i : Instr} {s t : State} (h : exec i s = .next t) : t.cfg = s.cfg := by
  obtain ⟨r, rfl⟩ | ⟨r, u, hu, rfl⟩ := exec_cases h
  · exact refuse_cfg r s
  · exact hu.cfg

theorem exec_stream {i : Instr} {s t : State} (h : exec i s = .next t) : t.stream = s.stream := by
  obtain ⟨r, rfl⟩ | ⟨r, u, hu, rfl⟩ := exec_cases h
  · exact refuse_stream r s
  · exact hu.stream

theorem step_cfg {s t : State} (h : step s = .next t) : t.cfg = s.cfg := by
  obtain ⟨-, ⟨r, rest, -, rfl⟩ | ⟨i, rest, -, he⟩⟩ := step_cases h
  · exact refuse_cfg r (s.withStream rest)
  · exact (exec_cfg he).trans (State.withStream_cfg rest s)

/-- Settles O10: neither a refused encoding nor a decoded command writes the parameters (00_scope R7). -/
theorem parametersNeverChange : Obligations.ParametersNeverChange := fun _ _ h => step_cfg h

/-! ## When a command completes -/

theorem exec_render (d : Display) (s : State) :
    exec (.render d) s =
      if s.cfg.indicesFit then .next (completeBool (forEach (renderChip d) (List.range s.cfg.nchips) true s))
      else .fault .noSuchBufferByte := rfl

theorem exec_render_fault_iff (d : Display) (s : State) :
    exec (.render d) s = .fault .noSuchBufferByte ↔ ¬ s.cfg.IndicesFit := by
  rw [exec_render, ← decide_eq_true_iff (p := s.cfg.IndicesFit), ← Params.indicesFit]
  split <;> simp [*]

/-- Every command completes under well-formed parameters: RENDER's index ranges hold, and no other command has a stop. -/
theorem exec_completes {s : State} (i : Instr) (hwf : s.cfg.wellFormed = true) : ∃ t, exec i s = .next t := by
  cases i with
  | render d => exact ⟨_, (exec_render d s).trans (if_pos (Params.indicesFit_of_wellFormed hwf))⟩
  | _ => exact ⟨_, rfl⟩

/-- Settles O42: the index ranges of 00_scope R9, read at each native position, are the one condition of RENDER's fault, and a
well-formed parameter set meets them. -/
theorem renderFaultsOnMissingBufferByte : Obligations.RenderFaultsOnMissingBufferByte :=
  fun s d => ⟨(exec_render_fault_iff d s).trans s.cfg.not_indicesFit_iff, exec_completes (.render d)⟩

/-! ## How a run ends -/

/-- Every command of a nonempty stream completes and takes at least its opcode byte. -/
theorem step_progress {s : State} (hwf : s.cfg.wellFormed = true) (hs : s.stream ≠ []) :
    ∃ t, step s = .next t ∧ t.stream.length < s.stream.length := by
  obtain ⟨op, bytes, hcons⟩ := List.exists_cons_of_ne_nil hs
  have hleaves : (decode s.cfg s.stream).LeavesAtMost bytes.length := hcons ▸ decode_cons_leavesAtMost s.cfg op bytes
  have hlt : ∀ rest : List Byte, rest.length ≤ bytes.length → rest.length < s.stream.length := by
    intro rest h
    rw [hcons]
    exact Nat.lt_succ_of_le h
  cases hd : decode s.cfg s.stream with
  | command i rest =>
    obtain ⟨t, ht⟩ := exec_completes (s := s.withStream rest) i hwf
    rw [hd] at hleaves
    exact ⟨t, (step_of_command hwf hd).trans ht, exec_stream ht ▸ hlt rest hleaves⟩
  | rejected r rest =>
    rw [hd] at hleaves
    exact ⟨_, step_of_rejected hwf hd, hlt rest hleaves⟩
  | endOfStream => simp [hd] at hleaves

theorem runSteps_of_next {s t : State} (n : Nat) (h : step s = .next t) : runSteps (n + 1) s = runSteps n t := by
  simp only [runSteps, h]

theorem runSteps_of_refused {s : State} {r : Refusal} (n : Nat) (h : step s = .refused r) : runSteps n s = s := by
  cases n with
  | zero => rfl
  | succ n => simp only [runSteps, h]

theorem runSteps_cfg (n : Nat) (s : State) : (runSteps n s).cfg = s.cfg := by
  induction n generalizing s with
  | zero => rfl
  | succ n ih =>
    unfold runSteps
    split
    · next t h => exact (ih t).trans (step_cfg h)
    · rfl
    · rfl

/-- A run of at least as many steps as the stream has bytes exhausts it: each step takes a byte. -/
theorem runSteps_exhausts_stream {s : State} {n : Nat} (hwf : s.cfg.wellFormed = true) (hn : s.stream.length ≤ n) :
    (runSteps n s).stream = [] := by
  induction n generalizing s with
  | zero => exact List.eq_nil_of_length_eq_zero (Nat.le_zero.mp hn)
  | succ n ih =>
    by_cases hs : s.stream = []
    · rw [runSteps_of_refused _ (step_of_stream_nil hwf hs), hs]
    · obtain ⟨t, ht, hlt⟩ := step_progress hwf hs
      rw [runSteps_of_next n ht]
      exact ih (step_cfg ht ▸ hwf) (by omega)

/-- Settles O8: each step takes a byte, so the run exhausts the stream, and the step then has nothing to decode. -/
theorem runEndsWithStreamExhausted : Obligations.RunEndsWithStreamExhausted := by
  intro s hwf
  have hend : (runSteps s.stream.length s).stream = [] := runSteps_exhausts_stream hwf le_rfl
  have hwf' : (runSteps s.stream.length s).cfg.wellFormed = true := by rw [runSteps_cfg, hwf]
  exact ⟨hend, step_of_stream_nil hwf' hend, step_of_stream_nil hwf⟩

end Sys2Proof.Machine
end

section
/-! PROOFS. A command as data: the effect of each command's body (the lines, the page cache and the buffers it leaves, the events
it appends, the draws it uses, and its answer), read off the state, and the one equation that ties it to `exec`. The claims
of 10_state about commands are then read off the effects. -/

namespace Sys2Proof.Machine

/-! ## Effects -/

/-- What the body of a command leaves and appends. The events and the answer are functions of the coming draws; nothing else
depends on one. -/
structure Effect where
  sclOut : Bool
  sdaOut : Bool
  sdnOut : SdnDrive
  inCritical : Bool
  cache : List CacheEntry
  pwmBuf : Memory
  onoffBuf : Memory
  slots : Nat
  events : (Nat → Bool) → List Event
  answer : (Nat → Bool) → CmdResult

/-- The state after an effect, before the command completes. -/
def Effect.apply (e : Effect) (s : State) : State :=
  { s with
    sclOut := e.sclOut
    sdaOut := e.sdaOut
    sdnOut := e.sdnOut
    inCritical := e.inCritical
    cache := e.cache
    pwmBuf := e.pwmBuf
    onoffBuf := e.onoffBuf
    trace := s.trace ++ e.events s.drawAt
    draws := s.draws.drop e.slots
    drawCount := s.drawCount + e.slots }

/-- The state after a command with the effect `e`. -/
def Effect.finish (e : Effect) (s : State) : State := complete (e.answer s.drawAt) (e.apply s)

/-- The effect that leaves everything as it is. -/
def Effect.quiet (s : State) : Effect where
  sclOut := s.sclOut
  sdaOut := s.sdaOut
  sdnOut := s.sdnOut
  inCritical := s.inCritical
  cache := s.cache
  pwmBuf := s.pwmBuf
  onoffBuf := s.onoffBuf
  slots := 0
  events := fun _ => []
  answer := fun _ => .none

/-- The effect of a plan: a plan without frames drives no line, any other leaves the bus released. -/
def Effect.ofPlan (plan : Plan) (s : State) : Effect :=
  { Effect.quiet s with
    sclOut := if plan.1 = [] then s.sclOut else true
    sdaOut := if plan.1 = [] then s.sdaOut else true
    inCritical := if plan.1 = [] then s.inCritical else false
    cache := plan.2
    slots := slotCount plan.1
    events := framesEvents plan.1
    answer := fun d => .bool (allAcked (slotCount plan.1) d) }

theorem ranPlan_eq (plan : Plan) (s : State) :
    ranPlan plan s = (allAcked (slotCount plan.1) s.drawAt, (Effect.ofPlan plan s).apply s) := by
  by_cases h : plan.1 = [] <;>
    simp [ranPlan, Effect.apply, Effect.ofPlan, Effect.quiet, sentFrames, dropDraws, framesEvents, h]

theorem completeBool_ranPlan (plan : Plan) (s : State) : completeBool (ranPlan plan s) = (Effect.ofPlan plan s).finish s := by
  rw [ranPlan_eq]
  rfl

/-! ## Plans of the commands that run over every chip -/

/-- WriteSeq as a plan: a burst to a global register sends nothing (41_chip_driver R117). -/
def planSeq (p : Params) (addr : Byte) (reg : RegId) (data : List Byte) (cache : List CacheEntry) : Plan :=
  if p.isGlobal reg then ([], cache) else planBurst p addr reg data cache

/-- What DISPLAY_INIT does for chip `i`, as a plan (41_chip_driver R123). -/
def planInit (p : Params) (gain : Byte) (i : Nat) (cache : List CacheEntry) : Plan :=
  Plan.andThen (planWriteReg p (p.addr8 i) p.configReg (p.cfgByte i) cache) (planWriteReg p (p.addr8 i) p.gccReg gain)

/-- What RENDER does for chip `i`, as a plan (42_serializer R141). -/
def planRender (p : Params) (d : Display) (i : Nat) (cache : List CacheEntry) : Plan :=
  Plan.andThen (planSeq p (p.addr8 i) p.pwmRegStart (Memory.bytes (serializePwm p d i) p.pwmLen) cache)
    (planSeq p (p.addr8 i) p.onoffRegStart (Memory.bytes (serializeOnoff p d i) p.onoffLen))

/-- Neither of RENDER's bursts is rejected. -/
def burstsOk (p : Params) : Bool := !p.isGlobal p.pwmRegStart && !p.isGlobal p.onoffRegStart

theorem ranPlan_nil {cache : List CacheEntry} {s : State} (h : s.cache = cache) : ranPlan ([], cache) s = (true, s) := by
  subst h
  rfl

theorem writeSeq_eq (addr : Byte) (reg : RegId) (data : List Byte) (s : State) :
    writeSeq addr reg data s =
      ((ranPlan (planSeq s.cfg addr reg data s.cache) s).1 && !s.cfg.isGlobal reg,
        (ranPlan (planSeq s.cfg addr reg data s.cache) s).2) := by
  cases h : s.cfg.isGlobal reg with
  | true => simp [writeSeq_global _ _ _ _ h, planSeq, h, ranPlan_nil rfl]
  | false => simp [writeSeq_paged _ _ _ _ h, planSeq, h]

theorem initChip_eq (gain : Byte) (i : Nat) (s : State) :
    initChip gain i s = ranPlan (planInit s.cfg gain i s.cache) s := by
  simp only [initChip, planInit, ranPlan_andThen, writeReg_eq, ranPlan_cfg, ranPlan_cache]

theorem forEach_initChip (gain : Byte) (indices : List Nat) (s : State) :
    forEach (initChip gain) indices true s = ranPlan (planEach (planInit s.cfg gain) indices s.cache) s := by
  rw [forEach_eq_ranPlan (p := s.cfg) (one := planInit s.cfg gain) (fun i u hu => hu ▸ initChip_eq gain i u) _ _ _ rfl]
  simp only [foldAck, Bool.and_true]

/-- A plan reads and writes no scratch buffer. -/
theorem ranPlan_loadBuffers (plan : Plan) (d : Display) (i : Nat) (s : State) :
    ranPlan plan (loadBuffers d i s) = ((ranPlan plan s).1, loadBuffers d i (ranPlan plan s).2) := by
  unfold ranPlan
  split <;> rfl

theorem ranPlan_clearBuffers (plan : Plan) (s : State) :
    ranPlan plan (clearBuffers s) = ((ranPlan plan s).1, clearBuffers (ranPlan plan s).2) := by
  unfold ranPlan
  split <;> rfl

theorem clearBuffers_loadBuffers (d : Display) (i : Nat) (s : State) : clearBuffers (loadBuffers d i s) = clearBuffers s := rfl

theorem clearBuffers_clearBuffers (s : State) : clearBuffers (clearBuffers s) = clearBuffers s := rfl

theorem renderChip_eq (d : Display) (i : Nat) (s : State) :
    renderChip d i s =
      ((ranPlan (planRender s.cfg d i s.cache) s).1 && burstsOk s.cfg,
        clearBuffers (ranPlan (planRender s.cfg d i s.cache) s).2) := by
  simp only [renderChip, planRender, ranPlan_andThen, writeSeq_eq, ranPlan_loadBuffers, loadBuffers_cfg, loadBuffers_cache,
    loadBuffers_pwmBuf, loadBuffers_onoffBuf, ranPlan_cfg, ranPlan_cache, clearBuffers_loadBuffers, foldAck, burstsOk]
  congr 1
  ac_rfl

/-- The loop of RENDER: the plans of the chips in turn; the buffers are cleared unless there is no chip. -/
theorem forEach_renderChip (p : Params) (d : Display) (indices : List Nat) (ok : Bool) (s : State) (hs : s.cfg = p) :
    forEach (renderChip d) indices ok s =
      ((ranPlan (planEach (planRender p d) indices s.cache) s).1 && ((decide (indices = []) || burstsOk p) && ok),
        if indices = [] then s else clearBuffers (ranPlan (planEach (planRender p d) indices s.cache) s).2) := by
  induction indices generalizing ok s with
  | nil => simp [forEach, planEach, ranPlan_nil rfl]
  | cons i rest ih =>
    subst hs
    rw [forEach, renderChip_eq, ih _ _ (by simp), planEach, ranPlan_andThen]
    simp only [clearBuffers_cache, ranPlan_cache, ranPlan_clearBuffers, clearBuffers_clearBuffers, foldAck]
    cases rest with
    | nil => simp [planEach, ranPlan_nil, Bool.and_comm, Bool.and_assoc, Bool.and_left_comm]
    | cons j rest => cases burstsOk s.cfg <;> simp [Bool.and_comm, Bool.and_assoc, Bool.and_left_comm]

/-! ## Every command as an effect -/

/-- The effect of a command that passes its operand check (40_transport R91 to R96, 41_chip_driver R113 to R123, 42_serializer
R141). -/
def effectOf (i : Instr) (s : State) : Effect :=
  match i with
  | .start => { Effect.quiet s with sclOut := false, sdaOut := false, events := fun _ => startEvents }
  | .stop => { Effect.quiet s with sclOut := true, sdaOut := true, events := fun _ => stopEvents }
  | .tx b =>
    { Effect.quiet s with
      sclOut := false
      sdaOut := true
      slots := 1
      events := fun d => txEvents b (d 0)
      answer := fun d => .bool (ackOf (d 0)) }
  | .rx sendAck =>
    { Effect.quiet s with
      sclOut := false
      sdaOut := true
      slots := 8
      events := rxEvents sendAck
      answer := fun d => .byte (byteOfBits d) }
  | .selectPage addr page => Effect.ofPlan (planSelect s.cfg addr page s.cache) s
  | .writeReg addr reg value => Effect.ofPlan (planWriteReg s.cfg addr reg value s.cache) s
  | .writeSeq addr reg data =>
    let plan := planSeq s.cfg addr reg data s.cache
    { Effect.ofPlan plan s with answer := fun d => .bool (allAcked (slotCount plan.1) d && !s.cfg.isGlobal reg) }
  | .driverInit => { Effect.quiet s with cache := List.replicate s.cfg.busChipCount .unknown }
  | .displayInit gain =>
    let plan := planEach (planInit s.cfg gain) (List.range s.cfg.nchips) (List.replicate s.cfg.busChipCount .unknown)
    { Effect.ofPlan plan s with
      sdnOut := .driven true
      events := fun d => .driveSdn true :: framesEvents plan.1 d }
  | .render d =>
    let plan := planEach (planRender s.cfg d) (List.range s.cfg.nchips) s.cache
    { Effect.ofPlan plan s with
      pwmBuf := if s.cfg.nchips = 0 then s.pwmBuf else []
      onoffBuf := if s.cfg.nchips = 0 then s.onoffBuf else []
      answer := fun draws => .bool (allAcked (slotCount plan.1) draws && (decide (s.cfg.nchips = 0) || burstsOk s.cfg)) }

/-- A command completes, unless it is a RENDER whose parameter set names a missing scratch-buffer byte (log 6). -/
def completes (p : Params) : Instr → Bool
  | .render _ => p.indicesFit
  | .start | .stop | .tx _ | .rx _ | .selectPage _ _ | .writeReg _ _ _ | .writeSeq _ _ _ | .driverInit | .displayInit _ => true

theorem finish_writeSeq (addr : Byte) (reg : RegId) (data : List Byte) (s : State) :
    completeBool (writeSeq addr reg data s) = (effectOf (.writeSeq addr reg data) s).finish s := by
  rw [writeSeq_eq, ranPlan_eq]
  rfl

theorem finish_driverInit (s : State) : complete .none (clearCache s) = (effectOf .driverInit s).finish s := by
  simp [effectOf, Effect.finish, Effect.apply, Effect.quiet, clearCache]

theorem finish_displayInit (gain : Byte) (s : State) :
    completeBool (forEach (initChip gain) (List.range s.cfg.nchips) true (clearCache (setSdn true s))) =
      (effectOf (.displayInit gain) s).finish s := by
  rw [forEach_initChip, completeBool_ranPlan]
  simp only [Effect.finish, Effect.apply, effectOf, clearCache_trace, setSdn_trace, List.append_assoc]
  rfl

theorem finish_render (d : Display) (s : State) :
    completeBool (forEach (renderChip d) (List.range s.cfg.nchips) true s) = (effectOf (.render d) s).finish s := by
  rw [forEach_renderChip s.cfg d _ _ s rfl, ranPlan_eq]
  by_cases h : s.cfg.nchips = 0
  · simp [h, effectOf, planEach, framesEvents, Effect.finish, Effect.apply, Effect.ofPlan, Effect.quiet, completeBool]
  · simp [h, effectOf, Effect.finish, Effect.apply, Effect.ofPlan, Effect.quiet, completeBool, clearBuffers]

/-- Every command in one equation: the operand check, then the effect, or RENDER's fault. -/
theorem exec_eq (i : Instr) (s : State) :
    exec i s = if completes s.cfg i then .next (guarded (operandCheck s.cfg i) (effectOf i s).finish s)
      else .fault .noSuchBufferByte := by
  cases i with
  | start => simp only [exec, execStart, start_eq]; rfl
  | stop => simp only [exec, execStop, stop_eq]; rfl
  | tx b => simp only [exec, execTx, tx_eq]; rfl
  | rx sendAck => simp only [exec, execRx, rx_eq]; rfl
  | selectPage addr page => simp only [exec, execSelectPage, selectPage_eq, completeBool_ranPlan]; rfl
  | writeReg addr reg value => simp only [exec, execWriteReg, writeReg_eq, completeBool_ranPlan]; rfl
  | writeSeq addr reg data => simp only [exec, execWriteSeq, finish_writeSeq]; rfl
  | driverInit => simp only [exec, execDriverInit, finish_driverInit]; rfl
  | displayInit gain => simp only [exec, execDisplayInit, finish_displayInit]; rfl
  | render d => simp only [exec_render, finish_render]; rfl
/-- A RENDER has no operand check, so a refused command has no other stop. -/
theorem completes_of_operandCheck {p : Params} {i : Instr} {r : RefusalReason} (h : operandCheck p i = some r) :
    completes p i = true := by
  cases i with
  | render d => cases h
  | _ => rfl

/-- How a command ends: refused by its operand check, or with its effect. -/
theorem exec_next_iff (i : Instr) (s t : State) :
    exec i s = .next t ↔
      (∃ r, operandCheck s.cfg i = some r ∧ refuse r s = t) ∨
      (operandCheck s.cfg i = none ∧ completes s.cfg i = true ∧ (effectOf i s).finish s = t) := by
  rw [exec_eq]
  cases ho : operandCheck s.cfg i with
  | some r => simp [completes_of_operandCheck ho, guarded_some]
  | none => cases hc : completes s.cfg i <;> simp [guarded_none]

section
variable (e : Effect) (s : State)

@[simp] theorem Effect.finish_sclOut : (e.finish s).sclOut = e.sclOut := rfl
@[simp] theorem Effect.finish_sdaOut : (e.finish s).sdaOut = e.sdaOut := rfl
@[simp] theorem Effect.finish_sdnOut : (e.finish s).sdnOut = e.sdnOut := rfl
@[simp] theorem Effect.finish_inCritical : (e.finish s).inCritical = e.inCritical := rfl
@[simp] theorem Effect.finish_cache : (e.finish s).cache = e.cache := rfl
@[simp] theorem Effect.finish_pwmBuf : (e.finish s).pwmBuf = e.pwmBuf := rfl
@[simp] theorem Effect.finish_onoffBuf : (e.finish s).onoffBuf = e.onoffBuf := rfl
@[simp] theorem Effect.finish_trace : (e.finish s).trace = s.trace ++ e.events s.drawAt := rfl
@[simp] theorem Effect.finish_results : (e.finish s).results = s.results ++ [e.answer s.drawAt] := rfl
@[simp] theorem Effect.finish_faultMark : (e.finish s).faultMark = s.faultMark := rfl
@[simp] theorem Effect.finish_cmdIndex : (e.finish s).cmdIndex = s.cmdIndex + 1 := rfl
@[simp] theorem Effect.finish_cfg : (e.finish s).cfg = s.cfg := rfl

end

/-- An effect is read off the lines, the cache, the buffers and the parameters: no result, mark or draw. -/
theorem effectOf_congr (i : Instr) (s : State) (rs : List CmdResult) (m : Option RefusalReason) (n : Option FaultReason)
    (ds : List Bool) (c : Nat) :
    effectOf i { s with results := rs, refusedMark := m, faultMark := n, draws := ds, drawCount := c } = effectOf i s := by
  cases i <;> rfl

/-! ## The caches that plans leave -/

/-- On a hit the entry already is the page, so a page select always sets it. -/
theorem planSelect_cache (p : Params) (addr page : Byte) (cache : List CacheEntry) :
    (planSelect p addr page cache).2 = cache.set (p.key addr) (.page page) := by
  unfold planSelect
  split
  · next h =>
    have hk : p.key addr < cache.length := by
      by_contra hk
      simp [List.getElem?_eq_none (Nat.le_of_not_lt hk)] at h
    rw [← h, List.getD_eq_getElem _ _ hk, List.set_getElem_self]
  · rfl

theorem planWriteReg_cache (p : Params) (addr : Byte) (reg : RegId) (value : Byte) (cache : List CacheEntry) :
    (planWriteReg p addr reg value cache).2 =
      if p.isGlobal reg then cache else cache.set (p.key addr) (.page (regPage reg)) := by
  unfold planWriteReg
  split
  · rfl
  · exact planSelect_cache p addr (regPage reg) cache

theorem planSeq_cache (p : Params) (addr : Byte) (reg : RegId) (data : List Byte) (cache : List CacheEntry) :
    (planSeq p addr reg data cache).2 = if p.isGlobal reg then cache else cache.set (p.key addr) (.page (regPage reg)) := by
  unfold planSeq
  split
  · rfl
  · exact planSelect_cache p addr (regPage reg) cache

theorem planInit_cache {p : Params} (hwf : p.wellFormed = true) (gain : Byte) (i : Nat) (cache : List CacheEntry) :
    (planInit p gain i cache).2 = cache.set (p.key (p.addr8 i)) (.page (regPage p.gccReg)) := by
  obtain ⟨-, ⟨-, -, hconfig, hgcc, -, -⟩, -⟩ := p.wellFormed_iff.mp hwf
  simp [planInit, Plan.andThen, planWriteReg_cache, hconfig, hgcc]

theorem planRender_cache {p : Params} (hwf : p.wellFormed = true) (d : Display) (i : Nat) (cache : List CacheEntry) :
    (planRender p d i cache).2 = cache.set (p.key (p.addr8 i)) (.page (regPage p.onoffRegStart)) := by
  obtain ⟨-, ⟨-, -, -, -, hpwm, honoff⟩, -⟩ := p.wellFormed_iff.mp hwf
  simp [planRender, Plan.andThen, planSeq_cache, hpwm, honoff]

section
variable {one : Nat → List CacheEntry → Plan} {key : Nat → Nat} {e : CacheEntry}

theorem planEach_cache_length (hone : ∀ i cache, (one i cache).2 = cache.set (key i) e) (indices : List Nat)
    (cache : List CacheEntry) : (planEach one indices cache).2.length = cache.length := by
  induction indices generalizing cache with
  | nil => rfl
  | cons i rest ih => simp [planEach, Plan.andThen, ih, hone]

/-- An entry that one update changes is the one updated, and it is now what it was set to. -/
theorem eq_of_getD_set_ne {cache : List CacheEntry} {j k : Nat} {u : CacheEntry}
    (h : (cache.set j e).getD k u ≠ cache.getD k u) : k = j ∧ (cache.set j e).getD k u = e := by
  simp only [List.getD_eq_getElem?_getD, List.getElem?_set] at h ⊢
  split at h
  · next hjk =>
    subst hjk
    split at h <;> simp_all
  · exact absurd rfl h

theorem planEach_cache_entry (hone : ∀ i cache, (one i cache).2 = cache.set (key i) e) (indices : List Nat)
    (cache : List CacheEntry) (k : Nat) (u : CacheEntry) :
    (planEach one indices cache).2.getD k u = cache.getD k u ∨ (planEach one indices cache).2.getD k u = e := by
  induction indices generalizing cache with
  | nil => exact .inl rfl
  | cons i rest ih =>
    simp only [planEach, Plan.andThen, hone]
    by_cases h : (cache.set (key i) e).getD k u = cache.getD k u
    · exact h ▸ ih _
    · exact .inr ((ih _).elim (·.trans (eq_of_getD_set_ne h).2) id)

end

/-! ## Which plans put frames on the bus -/

theorem planSelect_frames_eq_nil_iff (p : Params) (addr page : Byte) (cache : List CacheEntry) :
    (planSelect p addr page cache).1 = [] ↔ cache.getD (p.key addr) .unknown = .page page := by
  unfold planSelect
  split
  · next h => simp only [h]
  · next h => simp only [h, selectFrames, reduceCtorEq]

theorem planWriteReg_frames_ne_nil (p : Params) (addr : Byte) (reg : RegId) (value : Byte) (cache : List CacheEntry) :
    (planWriteReg p addr reg value cache).1 ≠ [] := by
  unfold planWriteReg
  split <;> simp

theorem planSeq_frames_eq_nil_iff (p : Params) (addr : Byte) (reg : RegId) (data : List Byte) (cache : List CacheEntry) :
    (planSeq p addr reg data cache).1 = [] ↔ p.isGlobal reg = true := by
  unfold planSeq planBurst
  split <;> simp [*]

theorem planInit_frames_ne_nil (p : Params) (gain : Byte) (i : Nat) (cache : List CacheEntry) :
    (planInit p gain i cache).1 ≠ [] := by
  simp [planInit, Plan.andThen, planWriteReg_frames_ne_nil]

theorem planRender_frames_ne_nil {p : Params} (hwf : p.wellFormed = true) (d : Display) (i : Nat) (cache : List CacheEntry) :
    (planRender p d i cache).1 ≠ [] := by
  obtain ⟨-, ⟨-, -, -, -, hpwm, -⟩, -⟩ := p.wellFormed_iff.mp hwf
  simp [planRender, Plan.andThen, planSeq_frames_eq_nil_iff, hpwm]

theorem planEach_frames_ne_nil {one : Nat → List CacheEntry → Plan} (hone : ∀ i cache, (one i cache).1 ≠ [])
    {p : Params} (hwf : p.wellFormed = true) (cache : List CacheEntry) :
    (planEach one (List.range p.nchips) cache).1 ≠ [] := by
  obtain ⟨n, hn⟩ := Nat.exists_eq_succ_of_ne_zero (Params.nchips_pos hwf).ne'
  simp [hn, List.range_succ_eq_map, planEach, Plan.andThen, hone]

end Sys2Proof.Machine
end

section
/-! PROOFS. The state (10_state): the fields at reset, what every command keeps, and what its result means. -/

namespace Sys2Proof.Machine

/-! ## Reset -/

/-- An entry of a cache of Unknown entries, and past its end, reads Unknown. -/
theorem getD_replicate_unknown (n k : Nat) : (List.replicate n CacheEntry.unknown).getD k .unknown = .unknown := by
  rw [List.getD_eq_getElem?_getD, List.getElem?_getD_replicate_default_eq]

/-- Settles O1: every field of the reset state by its definition. -/
theorem resetStateFields : Obligations.ResetStateFields := fun p =>
  ⟨rfl, rfl, rfl, List.length_replicate, getD_replicate_unknown p.busChipCount, fun _ => ⟨rfl, rfl⟩,
    rfl, rfl, rfl, rfl, rfl, rfl, rfl, rfl, rfl, rfl⟩

theorem inv_resetWith {p : Params} (hwf : p.wellFormed = true) : Inv (State.resetWith p) where
  params := hwf
  cacheLength := List.length_replicate
  pwmZero := rfl
  onoffZero := rfl
  notCritical := rfl
  releasedIsIdle _ := rfl
  oneResultEach := rfl
  noFault := rfl

/-- Settles O2: the reset state meets the invariant for every well-formed parameter set, and the set of `State.reset` is one. -/
theorem resetMeetsBoundaryInvariant : Obligations.ResetMeetsBoundaryInvariant :=
  ⟨fun _ => inv_resetWith, inv_resetWith (by decide +kernel)⟩

/-! ## Bookkeeping: the count, the results, the trace and the marks -/

/-- Settles O9: a refused encoding and a command complete once each. -/
theorem stepCountsOneCommand : Obligations.StepCountsOneCommand := by
  intro s t h
  obtain ⟨-, ⟨r, rest, -, rfl⟩ | ⟨i, rest, -, he⟩⟩ := step_cases h
  · exact ⟨rfl, _, rfl⟩
  · obtain ⟨r, rfl⟩ | ⟨r, u, hu, rfl⟩ := exec_cases he
    · exact ⟨rfl, _, rfl⟩
    · exact ⟨congrArg (· + 1) hu.cmdIndex, r, congrArg (· ++ [r]) hu.results⟩

/-- Settles O11: a refusal appends nothing and draws nothing, and the body of a command draws once for each sample it appends. -/
theorem traceOnlyGrows : Obligations.TraceOnlyGrows := by
  intro s t h
  suffices hev : ∃ es, t.trace = s.trace ++ es ∧ t.drawCount = s.drawCount + (samplesOf es).length ∧
      t.draws = s.draws.drop (samplesOf es).length by
    obtain ⟨es, htrace, hcount, hdraws⟩ := hev
    exact ⟨es, htrace, hcount, by rw [hdraws, hcount, Nat.add_sub_cancel_left]⟩
  obtain ⟨-, ⟨r, rest, -, rfl⟩ | ⟨i, rest, -, he⟩⟩ := step_cases h
  · exact (Advances.refl s).events
  · obtain ⟨r, rfl⟩ | ⟨r, u, hu, rfl⟩ := exec_cases he
    · exact (Advances.refl s).events
    · exact hu.events

theorem refuse_keeps_mark {q : RefusalReason} {s : State} (r : RefusalReason) (h : s.refusedMark = some q) :
    (refuse r s).refusedMark = some q := by
  rw [refuse_refusedMark, h]
  rfl

/-- A command keeps a mark that is set. -/
theorem exec_keeps_marks {i : Instr} {s t : State} (h : exec i s = .next t) :
    (∀ q, s.refusedMark = some q → t.refusedMark = some q) ∧ t.faultMark = s.faultMark := by
  obtain ⟨r, rfl⟩ | ⟨r, u, hu, rfl⟩ := exec_cases h
  · exact ⟨fun _ => refuse_keeps_mark r, rfl⟩
  · exact ⟨fun _ hq => hu.refusedMark.trans hq, hu.faultMark⟩

/-- A step keeps a mark that is set. -/
theorem step_keeps_marks {s t : State} (h : step s = .next t) :
    (∀ q, s.refusedMark = some q → t.refusedMark = some q) ∧ t.faultMark = s.faultMark := by
  obtain ⟨-, ⟨r, rest, -, rfl⟩ | ⟨i, rest, -, he⟩⟩ := step_cases h
  · exact ⟨fun _ => refuse_keeps_mark (s := s.withStream rest) r, rfl⟩
  · exact exec_keeps_marks (s := s.withStream rest) he

/-- Whatever the marks, a command leaves the same next state but for the marks. -/
theorem exec_ignores_marks {i : Instr} {s t : State} (m : Option RefusalReason) (n : Option FaultReason)
    (h : exec i s = .next t) :
    ∃ m' n', exec i { s with refusedMark := m, faultMark := n } = .next { t with refusedMark := m', faultMark := n' } := by
  have he := effectOf_congr i s s.results m n s.draws s.drawCount
  simp only [exec_next_iff] at h ⊢
  obtain ⟨r, ho, rfl⟩ | ⟨ho, hc, rfl⟩ := h
  · exact ⟨m.or (some r), n, .inl ⟨r, ho, rfl⟩⟩
  · exact ⟨m, n, .inr ⟨ho, hc, by rw [he]; rfl⟩⟩

/-- Settles O12: a refusal keeps the first mark, nothing else writes one, and no effect is read off a mark. -/
theorem marksAreStickyAndIgnored : Obligations.MarksAreStickyAndIgnored :=
  ⟨fun _ => ⟨rfl, rfl⟩, fun _ _ h => ⟨(step_keeps_marks h).1, fun _ hq => (step_keeps_marks h).2.trans hq⟩,
    fun _ _ _ m n h => exec_ignores_marks m n h⟩

/-! ## The shutdown line -/

/-- Settles O13: a refusal leaves the line, and DISPLAY_INIT's effect alone drives it. -/
theorem onlyDisplayInitDrivesSdn : Obligations.OnlyDisplayInitDrivesSdn := by
  refine ⟨fun _ => rfl, fun i s t h => ?_⟩
  obtain ⟨r, ho, rfl⟩ | ⟨-, -, rfl⟩ := (exec_next_iff i s t).mp h
  · cases i with
    | displayInit gain => cases ho
    | _ => rfl
  · rw [Effect.finish_sdnOut]
    cases i <;> rfl

/-! ## The page cache -/

/-- An entry that a write to `reg` changes: the register is paged, and the entry is the one its page select sets. -/
theorem paged_of_getD_ne {p : Params} {reg : RegId} {cache : List CacheEntry} {j k : Nat} {u e : CacheEntry}
    (h : (if p.isGlobal reg then cache else cache.set j e).getD k u ≠ cache.getD k u) :
    p.isGlobal reg = false ∧ k = j ∧ (if p.isGlobal reg then cache else cache.set j e).getD k u = e := by
  cases hg : p.isGlobal reg with
  | true => simp [hg] at h
  | false =>
    simp only [hg, Bool.false_eq_true, if_false] at h ⊢
    exact ⟨trivial, eq_of_getD_set_ne h⟩

/-- Under well-formed parameters DISPLAY_INIT leaves each entry Unknown or at the GCC page. -/
theorem displayInit_cache_entry {s : State} (hwf : s.cfg.wellFormed = true) (gain : Byte) (k : Nat) :
    (effectOf (.displayInit gain) s).cache.getD k .unknown = .unknown ∨
      (effectOf (.displayInit gain) s).cache.getD k .unknown = .page (regPage s.cfg.gccReg) := by
  have h := planEach_cache_entry (planInit_cache hwf gain) (List.range s.cfg.nchips)
    (List.replicate s.cfg.busChipCount .unknown) k .unknown
  rwa [getD_replicate_unknown] at h

/-- Under well-formed parameters RENDER leaves each entry as it is or at the on/off page. -/
theorem render_cache_entry {s : State} (hwf : s.cfg.wellFormed = true) (d : Display) (k : Nat) :
    (effectOf (.render d) s).cache.getD k .unknown = s.cache.getD k .unknown ∨
      (effectOf (.render d) s).cache.getD k .unknown = .page (regPage s.cfg.onoffRegStart) :=
  planEach_cache_entry (planRender_cache hwf d) _ _ _ _

/-- Settles O14: a refusal leaves the cache, and the effect of each command sets an entry as its plan says. -/
theorem cacheChangesOnlyBySelectOrInit : Obligations.CacheChangesOnlyBySelectOrInit := by
  intro i s t k hinv h hne
  obtain ⟨r, -, rfl⟩ | ⟨-, -, rfl⟩ := (exec_next_iff i s t).mp h
  · exact absurd rfl hne
  simp only [State.cacheAt, Effect.finish_cache] at hne ⊢
  cases i with
  | start | stop | tx _ | rx _ => exact hne rfl
  | selectPage addr page =>
    simp only [effectOf, Effect.ofPlan, planSelect_cache] at hne ⊢
    exact eq_of_getD_set_ne hne
  | writeReg addr reg value =>
    simp only [effectOf, Effect.ofPlan, planWriteReg_cache] at hne ⊢
    exact paged_of_getD_ne hne
  | writeSeq addr reg data =>
    simp only [effectOf, Effect.ofPlan, planSeq_cache] at hne ⊢
    exact paged_of_getD_ne hne
  | driverInit => exact getD_replicate_unknown ..
  | displayInit gain => exact displayInit_cache_entry hinv.params gain k
  | render d => exact (render_cache_entry hinv.params d k).resolve_left hne

/-! ## The lines -/

/-- A plan with frames leaves the bus idle. -/
theorem Effect.finish_ofPlan_idle {plan : Plan} (h : plan.1 ≠ []) (s u : State) : ((Effect.ofPlan plan s).finish u).Idle :=
  ⟨if_neg h, if_neg h⟩

/-- A plan without frames leaves the lines as they are. -/
theorem Effect.ofPlan_lines_of_nil {plan : Plan} (h : plan.1 = []) (s : State) :
    (Effect.ofPlan plan s).sclOut = s.sclOut ∧ (Effect.ofPlan plan s).sdaOut = s.sdaOut := by
  simp [Effect.ofPlan, Effect.quiet, h]

/-- Any plan leaves an idle bus idle. -/
theorem Effect.ofPlan_idle_of_idle {s : State} (plan : Plan) (h : s.Idle) :
    (Effect.ofPlan plan s).sclOut = true ∧ (Effect.ofPlan plan s).sdaOut = true := by
  simp [Effect.ofPlan, Effect.quiet, h]

/-- Settles O30: a refusal drives no line, and a plan drives the lines exactly when it has a frame. -/
theorem driverCommandsLeaveBusIdle : Obligations.DriverCommandsLeaveBusIdle := by
  intro i s t h
  obtain ⟨r, ho, rfl⟩ | ⟨ho, -, rfl⟩ := (exec_next_iff i s t).mp h
  · exact ⟨fun _ => ⟨rfl, rfl⟩, fun hn => by simp [hn] at ho⟩
  refine ⟨fun hn => absurd ho hn, fun _ => ?_⟩
  cases i with
  | start | tx _ | rx _ => rfl
  | stop => exact ⟨rfl, rfl⟩
  | selectPage addr page =>
    exact ⟨fun hmiss => Effect.finish_ofPlan_idle (mt (planSelect_frames_eq_nil_iff ..).mp hmiss) s s,
      fun hhit => Effect.ofPlan_lines_of_nil ((planSelect_frames_eq_nil_iff ..).mpr hhit) s⟩
  | writeReg addr reg value => exact Effect.finish_ofPlan_idle (planWriteReg_frames_ne_nil _ _ _ _ _) s s
  | writeSeq addr reg data =>
    refine ⟨fun hp => Effect.finish_ofPlan_idle (mt (planSeq_frames_eq_nil_iff ..).mp ?_) s s,
      fun hg => Effect.ofPlan_lines_of_nil ((planSeq_frames_eq_nil_iff ..).mpr (beq_iff_eq.mpr hg)) s⟩
    exact mt beq_iff_eq.mp hp
  | driverInit => exact ⟨rfl, rfl⟩
  | displayInit gain =>
    exact ⟨fun hwf => Effect.finish_ofPlan_idle (planEach_frames_ne_nil (planInit_frames_ne_nil s.cfg gain) hwf _) s s,
      fun hidle => Effect.ofPlan_idle_of_idle _ hidle⟩
  | render d =>
    exact ⟨fun hwf => Effect.finish_ofPlan_idle (planEach_frames_ne_nil (planRender_frames_ne_nil hwf d) hwf _) s s,
      fun hidle => Effect.ofPlan_idle_of_idle _ hidle⟩

/-! ## The boundary invariant -/

theorem refuse_inv {s : State} (r : RefusalReason) (h : Inv s) : Inv (refuse r s) :=
  { h with oneResultEach := by simp [h.oneResultEach] }

theorem withStream_inv {s : State} (rest : List Byte) (h : Inv s) : Inv (s.withStream rest) := { h with }

/-- No command changes the number of cache entries. -/
theorem effectOf_cache_length {s : State} (i : Instr) (hwf : s.cfg.wellFormed = true)
    (h : s.cache.length = s.cfg.busChipCount) : (effectOf i s).cache.length = s.cfg.busChipCount := by
  cases i with
  | start | stop | tx _ | rx _ => exact h
  | selectPage addr page => simp [effectOf, Effect.ofPlan, planSelect_cache, h]
  | writeReg addr reg value =>
    simp only [effectOf, Effect.ofPlan, planWriteReg_cache]
    split <;> simp [h]
  | writeSeq addr reg data =>
    simp only [effectOf, Effect.ofPlan, planSeq_cache]
    split <;> simp [h]
  | driverInit => exact List.length_replicate
  | displayInit gain => exact (planEach_cache_length (planInit_cache hwf gain) _ _).trans List.length_replicate
  | render d => exact (planEach_cache_length (planRender_cache hwf d) _ _).trans h

/-- No command leaves a byte in a scratch buffer. -/
theorem effectOf_buffers {s : State} (i : Instr) (hpwm : s.pwmBuf = []) (honoff : s.onoffBuf = []) :
    (effectOf i s).pwmBuf = [] ∧ (effectOf i s).onoffBuf = [] := by
  cases i with
  | render d => simp [effectOf, hpwm, honoff]
  | _ => exact ⟨hpwm, honoff⟩

/-- A plan keeps the rule of the lines (40_transport R99) and leaves no transaction in progress. -/
theorem Effect.ofPlan_boundary {s : State} (plan : Plan) (hc : s.inCritical = false)
    (hl : s.sclOut = true → s.sdaOut = true) :
    (Effect.ofPlan plan s).inCritical = false ∧
      ((Effect.ofPlan plan s).sclOut = true → (Effect.ofPlan plan s).sdaOut = true) := by
  by_cases h : plan.1 = []
  · simpa [Effect.ofPlan, h, hc] using hl
  · simp [Effect.ofPlan, h]

/-- Every command keeps the rule of the lines and leaves no transaction in progress. -/
theorem effectOf_boundary {s : State} (i : Instr) (hc : s.inCritical = false) (hl : s.sclOut = true → s.sdaOut = true) :
    (effectOf i s).inCritical = false ∧ ((effectOf i s).sclOut = true → (effectOf i s).sdaOut = true) := by
  cases i with
  | start | stop | tx _ | rx _ => exact ⟨hc, by simp [effectOf]⟩
  | driverInit => exact ⟨hc, hl⟩
  | selectPage _ _ | writeReg _ _ _ | writeSeq _ _ _ | displayInit _ | render _ => exact Effect.ofPlan_boundary _ hc hl

/-- Every command keeps the invariant of command boundaries. -/
theorem exec_inv {i : Instr} {s t : State} (hinv : Inv s) (h : exec i s = .next t) : Inv t := by
  obtain ⟨r, -, rfl⟩ | ⟨-, -, rfl⟩ := (exec_next_iff i s t).mp h
  · exact refuse_inv r hinv
  · obtain ⟨hpwm, honoff⟩ := effectOf_buffers i hinv.pwmZero hinv.onoffZero
    obtain ⟨hcritical, hlines⟩ := effectOf_boundary i hinv.notCritical hinv.releasedIsIdle
    exact {
      params := hinv.params
      cacheLength := effectOf_cache_length i hinv.params hinv.cacheLength
      pwmZero := hpwm
      onoffZero := honoff
      notCritical := hcritical
      releasedIsIdle := hlines
      oneResultEach := by simp [hinv.oneResultEach]
      noFault := hinv.noFault }

/-- Settles O3: the invariant does not depend on the stream, and both a refusal and every effect keep it. -/
theorem stepKeepsBoundaryInvariant : Obligations.StepKeepsBoundaryInvariant := by
  intro s t hinv h
  obtain ⟨-, ⟨r, rest, -, rfl⟩ | ⟨i, rest, -, he⟩⟩ := step_cases h
  · exact refuse_inv r (withStream_inv rest hinv)
  · exact exec_inv (withStream_inv rest hinv) he

/-! ## Results -/

theorem burstsOk_of_wellFormed {p : Params} (hwf : p.wellFormed = true) : burstsOk p = true := by
  obtain ⟨-, ⟨-, -, -, -, hpwm, honoff⟩, -⟩ := p.wellFormed_iff.mp hwf
  simp [burstsOk, hpwm, honoff]

theorem sample_mem_txEvents_iff (b : Byte) (v : Bool) : Event.sample true ∈ txEvents b v ↔ v = true := by
  simp [txEvents, cellEvents, eq_comm]

/-- The acknowledgements of some bytes are all acks exactly when their events hold no sample of 1. -/
theorem allAcked_iff_bytesEvents (bytes : List Byte) (d : Nat → Bool) :
    allAcked bytes.length d = true ↔ Event.sample true ∉ bytesEvents bytes d := by
  induction bytes generalizing d with
  | nil => simp [allAcked_zero, bytesEvents]
  | cons b rest ih => simp [allAcked_succ, bytesEvents, sample_mem_txEvents_iff, ih, ackOf]

/-- The acknowledgements of some frames are all acks exactly when their events hold no sample of 1. -/
theorem allAcked_iff_framesEvents (fs : List Frame) (d : Nat → Bool) :
    allAcked (slotCount fs) d = true ↔ Event.sample true ∉ framesEvents fs d := by
  induction fs generalizing d with
  | nil => simp [allAcked_zero, framesEvents]
  | cons f rest ih =>
    simp [allAcked_add, framesEvents, frameEvents, startEvents, stopEvents, allAcked_iff_bytesEvents, ih, Nat.add_comm]

/-- What the result of a plan says of the events it appends. -/
theorem Effect.ofPlan_answer {plan : Plan} {s : State} {d : Nat → Bool} {b : Bool}
    (h : (Effect.ofPlan plan s).answer d = .bool b) : b = true ↔ Event.sample true ∉ framesEvents plan.1 d := by
  rw [← allAcked_iff_framesEvents, ← CmdResult.bool.inj h]

/-- Under well-formed parameters a Bool answer is true exactly when no event of the command is a sample of 1 and the command is
no rejected burst. -/
theorem effectOf_answer_bool {i : Instr} {s : State} {d : Nat → Bool} {b : Bool} (hwf : s.cfg.wellFormed = true)
    (h : (effectOf i s).answer d = .bool b) :
    b = true ↔ Event.sample true ∉ (effectOf i s).events d ∧
      ∀ addr reg data, i = .writeSeq addr reg data → s.cfg.isGlobal reg = false := by
  cases i with
  | start | stop | rx _ | driverInit => cases h
  | tx byte =>
    obtain rfl := CmdResult.bool.inj h
    simp [effectOf, sample_mem_txEvents_iff, ackOf]
  | selectPage _ _ | writeReg _ _ _ => simpa [effectOf, Effect.ofPlan] using Effect.ofPlan_answer h
  | displayInit gain => simpa [effectOf] using Effect.ofPlan_answer (s := s) h
  | writeSeq addr reg data =>
    obtain rfl := CmdResult.bool.inj h
    simp [effectOf, Effect.ofPlan, allAcked_iff_framesEvents]
  | render display =>
    simp only [effectOf, burstsOk_of_wellFormed hwf, Bool.or_true, Bool.and_true] at h
    simpa [effectOf, Effect.ofPlan] using Effect.ofPlan_answer (s := s) h

theorem drivesOf_append (xs ys : List Event) : drivesOf (xs ++ ys) = drivesOf xs ++ drivesOf ys := List.map_append

/-- The drives of a wire format do not depend on the samples. -/
theorem drivesOf_txEvents (b : Byte) (v w : Bool) : drivesOf (txEvents b v) = drivesOf (txEvents b w) := rfl

theorem drivesOf_bytesEvents (bytes : List Byte) (d d' : Nat → Bool) :
    drivesOf (bytesEvents bytes d) = drivesOf (bytesEvents bytes d') := by
  induction bytes generalizing d d' with
  | nil => rfl
  | cons b rest ih =>
    simp only [bytesEvents, drivesOf_append]
    rw [drivesOf_txEvents b (d 0) (d' 0), ih]

theorem drivesOf_framesEvents (fs : List Frame) (d d' : Nat → Bool) :
    drivesOf (framesEvents fs d) = drivesOf (framesEvents fs d') := by
  induction fs generalizing d d' with
  | nil => rfl
  | cons f rest ih =>
    simp only [framesEvents, frameEvents, drivesOf_append]
    rw [drivesOf_bytesEvents f d d', ih]

/-- What a command drives does not depend on the draws. -/
theorem drivesOf_effectOf (i : Instr) (s : State) (d d' : Nat → Bool) :
    drivesOf ((effectOf i s).events d) = drivesOf ((effectOf i s).events d') := by
  cases i with
  | start | stop | tx _ | rx _ | driverInit => rfl
  | selectPage _ _ | writeReg _ _ _ | writeSeq _ _ _ | render _ => exact drivesOf_framesEvents ..
  | displayInit gain => exact congrArg (_ :: ·) (drivesOf_framesEvents ..)

/-- A command adds one result to whatever results there are. -/
theorem exec_ignores_results {i : Instr} {s t : State} (h : exec i s = .next t) :
    ∃ r, t.results = s.results ++ [r] ∧ ∀ rs, exec i { s with results := rs } = .next { t with results := rs ++ [r] } := by
  simp only [exec_next_iff] at h ⊢
  obtain ⟨r, ho, rfl⟩ | ⟨ho, hc, rfl⟩ := h
  · exact ⟨.none, rfl, fun _ => .inl ⟨r, ho, rfl⟩⟩
  · refine ⟨_, rfl, fun rs => .inr ⟨ho, hc, ?_⟩⟩
    rw [effectOf_congr i s rs s.refusedMark s.faultMark s.draws s.drawCount]
    rfl

/-- Under any other draws a command leaves the same state but for the results, the samples, and the draws. -/
theorem exec_other_draws {i : Instr} {s t : State} (ds : List Bool) (n : Nat) (h : exec i s = .next t) :
    ∃ t', exec i { s with draws := ds, drawCount := n } = .next t' ∧
      { t' with results := t.results, trace := t.trace, draws := t.draws, drawCount := t.drawCount } = t ∧
      drivesOf t'.trace = drivesOf t.trace := by
  simp only [exec_next_iff] at h ⊢
  obtain ⟨r, ho, rfl⟩ | ⟨ho, hc, rfl⟩ := h
  · exact ⟨_, .inl ⟨r, ho, rfl⟩, rfl, rfl⟩
  · have he := effectOf_congr i s s.results s.refusedMark s.faultMark ds n
    refine ⟨(effectOf i s).finish { s with draws := ds, drawCount := n }, .inr ⟨ho, hc, by rw [he]⟩, rfl, ?_⟩
    simp only [Effect.finish_trace, drivesOf_append]
    rw [drivesOf_effectOf i s _ s.drawAt]

/-- A command's Bool result says whether every acknowledgement it sampled was an ack and it was not rejected. -/
theorem exec_bool_result {i : Instr} {s t : State} {b : Bool} (hwf : s.cfg.wellFormed = true) (h : exec i s = .next t)
    (hb : t.results = s.results ++ [.bool b]) :
    b = true ↔ Event.sample true ∉ t.trace.drop s.trace.length ∧
      ∀ addr reg data, i = .writeSeq addr reg data → s.cfg.isGlobal reg = false := by
  obtain ⟨r, -, rfl⟩ | ⟨-, -, rfl⟩ := (exec_next_iff i s t).mp h
  · simp at hb
  · rw [Effect.finish_trace, List.drop_left]
    exact effectOf_answer_bool hwf (by simpa using hb)

/-- Settles O27: a command's answer is read off its own samples; no effect is read off a result, and none but the answer and the
samples off a draw. -/
theorem boolResultMeansAckedAndNotRejected : Obligations.BoolResultMeansAckedAndNotRejected := fun _ _ _ h =>
  ⟨fun hwf _ hb => exec_bool_result hwf h hb, exec_ignores_results h, fun ds n => exec_other_draws ds n h⟩

end Sys2Proof.Machine
end

section
/-! PROOFS. The command encoding (30_encoding R78 to R84): the bytes that decode to a command are its encoding, and the
encodings that are refused by name. -/

namespace Sys2Proof

/-! ## Register identifiers and pixel records -/

@[simp] theorem regPage_append_regOffset (r : RegId) : regPage r ++ regOffset r = r :=
  BitVec.extractLsb'_append_extractLsb'

@[simp] theorem regPage_append (hi lo : Byte) : regPage (hi ++ lo) = hi := BitVec.extractLsb'_append_eq_left

@[simp] theorem regOffset_append (hi lo : Byte) : regOffset (hi ++ lo) = lo := BitVec.extractLsb'_append_eq_right

/-- A word is two fields put together exactly when they are its high and its low bits. -/
theorem bits_eq_append_iff {m n : Nat} (v : BitVec (m + n)) (a : BitVec m) (b : BitVec n) :
    v = a ++ b ↔ v.extractLsb' n m = a ∧ v.extractLsb' 0 n = b := by
  constructor
  · rintro rfl
    exact ⟨BitVec.extractLsb'_append_eq_left, BitVec.extractLsb'_append_eq_right⟩
  · rintro ⟨rfl, rfl⟩
    exact BitVec.extractLsb'_append_extractLsb'.symm

theorem extractLsb'_extractLsb' {w i j m n : Nat} (v : BitVec w) (h : j + n ≤ m) :
    (v.extractLsb' i m).extractLsb' j n = v.extractLsb' (i + j) n := by
  ext k hk
  simp [show j + k < m by omega, Nat.add_assoc]

/-- The bytes of an intensity, most significant first (30_encoding R81). -/
theorem intensity_eq_append_iff (v : Intensity) (b0 b1 b2 b3 : Byte) :
    v = b0 ++ b1 ++ b2 ++ b3 ↔
      v.extractLsb' 24 8 = b0 ∧ v.extractLsb' 16 8 = b1 ∧ v.extractLsb' 8 8 = b2 ∧ v.extractLsb' 0 8 = b3 := by
  rw [bits_eq_append_iff v (b0 ++ b1 ++ b2) b3, bits_eq_append_iff _ (b0 ++ b1) b2, bits_eq_append_iff _ b0 b1]
  simp (disch := decide) only [and_assoc, extractLsb'_extractLsb', Nat.reduceAdd]

/-- A flag byte is its reserved bits and its three flags (30_encoding R81). -/
theorem flags_eq_append (f : Byte) :
    f.extractLsb' 3 5 ++ BitVec.ofBool (f.getLsbD 2) ++ BitVec.ofBool (f.getLsbD 1) ++ BitVec.ofBool (f.getLsbD 0) = f := by
  revert f
  decide

theorem encodeFlags_eq_iff (px : Pixel) (f : Byte) :
    encodeFlags px = f ↔
      f.extractLsb' 3 5 = 0#5 ∧ f.getLsbD 0 = px.gate ∧ f.getLsbD 1 = px.shorted ∧ f.getLsbD 2 = px.isOpen := by
  obtain ⟨intensity, gate, shorted, isOpen⟩ := px
  constructor
  · rintro rfl
    simp only [encodeFlags]
    revert gate shorted isOpen
    decide
  · rintro ⟨hreserved, rfl, rfl, rfl⟩
    rw [encodeFlags, ← hreserved, flags_eq_append]

/-- The five bytes that read as a pixel are its record. -/
theorem decodePixel_eq_some_iff (b0 b1 b2 b3 f : Byte) (px : Pixel) :
    decodePixel b0 b1 b2 b3 f = some px ↔ encodePixel px = [b0, b1, b2, b3, f] := by
  obtain ⟨intensity, gate, shorted, isOpen⟩ := px
  simp only [decodePixel, encodePixel, List.cons.injEq, encodeFlags_eq_iff, Option.ite_none_right_eq_some, Option.some.injEq,
    Pixel.mk.injEq, and_true]
  rw [eq_comm (a := _ ++ _), intensity_eq_append_iff]
  tauto

theorem decodePixels_encodePixel_append (px : Pixel) (n : Nat) (rest : List Byte) :
    decodePixels (n + 1) (encodePixel px ++ rest) = (decodePixels n rest).map (px :: ·) := by
  have h := (decodePixel_eq_some_iff _ _ _ _ _ px).mpr rfl
  simp only [encodePixel, List.cons_append, List.nil_append, decodePixels, h]
  cases decodePixels n rest <;> rfl

theorem decodePixels_flatMap_append (d : Display) (rest : List Byte) :
    decodePixels d.length (d.flatMap encodePixel ++ rest) = some d := by
  induction d with
  | nil => rfl
  | cons px d ih =>
    rw [List.length_cons, List.flatMap_cons, List.append_assoc, decodePixels_encodePixel_append, ih]
    rfl

/-- Bytes that read as pixels start with their records. -/
theorem eq_flatMap_append_of_decodePixels {n : Nat} {bytes : List Byte} {d : Display} (h : decodePixels n bytes = some d) :
    d.length = n ∧ ∃ rest, bytes = d.flatMap encodePixel ++ rest := by
  induction n, bytes using decodePixels.induct generalizing d with
  | case1 bytes =>
    obtain rfl := Option.some.inj h
    exact ⟨rfl, bytes, rfl⟩
  | case2 n b0 b1 b2 b3 f rest px pxs hpxs hpx ih =>
    simp only [decodePixels, hpx, hpxs, Option.some.injEq] at h
    obtain ⟨hlen, tail, htail⟩ := ih hpxs
    subst h
    rw [List.length_cons, hlen, List.flatMap_cons, (decodePixel_eq_some_iff ..).mp hpx, htail]
    exact ⟨rfl, tail, rfl⟩
  | case3 n b0 b1 b2 b3 f rest hnone ih => simp [decodePixels] at h
  | case4 n bytes hshort => simp [decodePixels] at h

/-! ## Operands -/

theorem decodeRx_eq_command_iff (b : Byte) (bytes rest : List Byte) (i : Instr) :
    decodeRx b bytes = .command i rest ↔
      ∃ sendAck, i = .rx sendAck ∧ b = (if sendAck then 0x01#8 else 0x00#8) ∧ bytes = rest := by
  constructor
  · intro h
    unfold decodeRx at h
    split at h
    · obtain ⟨rfl, rfl⟩ := Decoded.command.inj h
      exact ⟨false, rfl, ‹_›, rfl⟩
    · split at h
      · obtain ⟨rfl, rfl⟩ := Decoded.command.inj h
        exact ⟨true, rfl, ‹_›, rfl⟩
      · cases h
  · rintro ⟨sendAck, rfl, rfl, rfl⟩
    cases sendAck <;> rfl

theorem decodeSeq_eq_command_iff (addr : Byte) (reg : RegId) (len : Nat) (bytes rest : List Byte) (i : Instr) :
    decodeSeq addr reg len bytes = .command i rest ↔
      ∃ data, i = .writeSeq addr reg data ∧ data.length = len ∧ bytes = data ++ rest := by
  unfold decodeSeq
  constructor
  · intro h
    split at h
    · cases h
    · obtain ⟨rfl, rfl⟩ := Decoded.command.inj h
      exact ⟨bytes.take len, rfl, List.length_take_of_le (by omega), (List.take_append_drop len bytes).symm⟩
  · rintro ⟨data, rfl, rfl, rfl⟩
    simp

theorem decodeRender_eq_command_iff (n : Nat) (bytes rest : List Byte) (i : Instr) :
    decodeRender n bytes = .command i rest ↔ ∃ d, i = .render d ∧ d.length = n ∧ bytes = d.flatMap encodePixel ++ rest := by
  unfold decodeRender
  constructor
  · intro h
    split at h
    · cases h
    · split at h
      · next d hd =>
        obtain ⟨rfl, rfl⟩ := Decoded.command.inj h
        obtain ⟨rfl, tail, rfl⟩ := eq_flatMap_append_of_decodePixels hd
        exact ⟨d, rfl, rfl, by rw [List.drop_left' (Laws.length_encodePixels d)]⟩
      · cases h
  · rintro ⟨d, rfl, rfl, rfl⟩
    have hlen : ¬ (d.flatMap encodePixel ++ rest).length < 5 * d.length := by
      rw [List.length_append, Laws.length_encodePixels]
      omega
    rw [if_neg hlen, decodePixels_flatMap_append, List.drop_left' (Laws.length_encodePixels d)]

/-! ## Commands -/

/-- A command's operands are read back after its opcode. -/
theorem decodeOperands_encodeOperands (p : Params) (i : Instr) (rest : List Byte) (h : i.encodable p = true) :
    decodeOperands p (opcodeByte i).toNat (encodeOperands i ++ rest) = .command i rest := by
  cases i with
  | start | stop | tx _ | selectPage _ _ | driverInit | displayInit _ => rfl
  | rx sendAck => exact (decodeRx_eq_command_iff ..).mpr ⟨sendAck, rfl, rfl, rfl⟩
  | writeReg addr reg value =>
    show Decoded.command (.writeReg addr (regPage reg ++ regOffset reg) value) rest = _
    rw [regPage_append_regOffset]
  | writeSeq addr reg data =>
    refine (decodeSeq_eq_command_iff ..).mpr ⟨data, ?_, ?_, rfl⟩
    · rw [regPage_append_regOffset]
    · exact (Laws.toNat_append_bytes _ (of_decide_eq_true h)).symm
  | render d => exact (decodeRender_eq_command_iff ..).mpr ⟨d, rfl, of_decide_eq_true h, rfl⟩

theorem toNat_append_byte (hi lo : Byte) : (hi ++ lo).toNat = 256 * hi.toNat + lo.toNat := by
  rw [BitVec.toNat_append, ← Nat.shiftLeft_add_eq_or_of_lt lo.isLt, Nat.shiftLeft_eq]
  omega

/-- The two bytes of a 16-bit length are its high and its low byte. -/
theorem ofNat_toNat_append (hi lo : Byte) :
    BitVec.ofNat 8 ((hi ++ lo).toNat / 256) = hi ∧ BitVec.ofNat 8 ((hi ++ lo).toNat % 256) = lo := by
  rw [toNat_append_byte]
  constructor <;> bv_omega

/-- Operand bytes that are read as a command are that command's. -/
theorem eq_encodeOperands_append_of_decodeOperands {p : Params} {opcode : Nat} {bytes rest : List Byte} {i : Instr}
    (h : decodeOperands p opcode bytes = .command i rest) :
    opcode = (opcodeByte i).toNat ∧ bytes = encodeOperands i ++ rest ∧ i.encodable p = true := by
  unfold decodeOperands at h
  split at h
  -- the three opcodes whose operands have a decoder of their own: RX, WRITE_SEQ and RENDER
  case h_5 b bytes =>
    obtain ⟨sendAck, rfl, rfl, rfl⟩ := (decodeRx_eq_command_iff ..).mp h
    exact ⟨rfl, rfl, rfl⟩
  case h_11 addr hi lo lenHi lenLo bytes =>
    obtain ⟨data, rfl, hlen, rfl⟩ := (decodeSeq_eq_command_iff ..).mp h
    obtain ⟨hhi, hlo⟩ := ofNat_toNat_append lenHi lenLo
    refine ⟨rfl, ?_, decide_eq_true (by omega)⟩
    simp [encodeOperands, hlen, hhi, hlo]
  case h_16 bytes =>
    obtain ⟨d, rfl, hlen, rfl⟩ := (decodeRender_eq_command_iff ..).mp h
    exact ⟨rfl, rfl, decide_eq_true hlen⟩
  all_goals cases h
  all_goals exact ⟨rfl, by simp [encodeOperands], rfl⟩

/-- The bytes that decode to a command are its encoding and what follows (30_encoding R82). -/
theorem decode_eq_command_iff (p : Params) (bytes rest : List Byte) (i : Instr) :
    decode p bytes = .command i rest ↔ bytes = encode i ++ rest ∧ i.encodable p = true := by
  constructor
  · intro h
    cases bytes with
    | nil => cases h
    | cons op bytes =>
      obtain ⟨hop, rfl, hi⟩ := eq_encodeOperands_append_of_decodeOperands h
      rw [BitVec.eq_of_toNat_eq hop]
      exact ⟨rfl, hi⟩
  · rintro ⟨rfl, hi⟩
    exact decodeOperands_encodeOperands p i rest hi

/-- Settles O45: the decoder's equation, read from the encoding to the command. -/
theorem decodeGivesEncodedCommand : Obligations.DecodeGivesEncodedCommand :=
  fun p i rest hi => (decode_eq_command_iff p _ rest i).mpr ⟨rfl, hi⟩

/-- Settles O46: the decoder's equation, read from the command to the bytes. -/
theorem decodedBytesAreTheEncoding : Obligations.DecodedBytesAreTheEncoding :=
  fun p bytes i rest => (decode_eq_command_iff p bytes rest i).mp

/-- Settles O48: the words of the spec are the encodings of the commands. -/
theorem specWordsDecode : Obligations.SpecWordsDecode :=
  ⟨decodeGivesEncodedCommand _ (.tx 0xA0#8) [] rfl,
    decodeGivesEncodedCommand _ (.writeSeq 0xA0#8 0x0100#16 [0x11#8, 0x22#8, 0x33#8]) [] rfl,
    decodeGivesEncodedCommand _ (.render [⟨0x11223344#32, true, false, false⟩, ⟨0x000000FF#32, false, false, false⟩]) [] rfl,
    decodeGivesEncodedCommand _ (.writeReg 0xA0#8 0x0301#16 0x80#8) [] rfl⟩

/-! ## Refused encodings -/

theorem decodeOperands_illegalOpcode (p : Params) {opcode : Nat} (bytes : List Byte) (h : opcode = 0 ∨ 0x0B ≤ opcode) :
    decodeOperands p opcode bytes = .rejected .illegalOpcode bytes := by
  obtain rfl | h := h
  · rfl
  · obtain ⟨n, rfl⟩ := Nat.exists_eq_add_of_le' h
    rfl

/-- Some of a command's operand bytes, but not all of them, are a truncated command (30_encoding R83). -/
theorem decodeOperands_take_encodeOperands {p : Params} {i : Instr} {n : Nat} (hi : i.encodable p = true)
    (hn : n < (encodeOperands i).length) :
    decodeOperands p (opcodeByte i).toNat ((encodeOperands i).take n) = .rejected .truncated [] := by
  cases i with
  | start | stop | driverInit => exact absurd hn (Nat.not_lt_zero n)
  | tx _ | rx _ | displayInit _ =>
    obtain rfl := Nat.lt_one_iff.mp hn
    rfl
  | selectPage addr page =>
    match n, hn with
    | 0, _ | 1, _ => rfl
  | writeReg addr reg value =>
    match n, hn with
    | 0, _ | 1, _ | 2, _ | 3, _ => rfl
  | writeSeq addr reg data =>
    match n, hn with
    | 0, _ | 1, _ | 2, _ | 3, _ | 4, _ => rfl
    | n + 5, hn =>
      have hlen := Laws.toNat_append_bytes data.length (of_decide_eq_true hi)
      have hlt : n < data.length := by simpa [encodeOperands] using hn
      refine if_pos ?_
      rw [hlen, List.length_take]
      omega
  | render d =>
    have hlen : d.length = p.pixelCount := of_decide_eq_true hi
    rw [encodeOperands, Laws.length_encodePixels] at hn
    refine if_pos ?_
    rw [List.length_take, ← hlen]
    omega

/-- Settles O47: no arm of the decoder has an illegal opcode, and a cut encoding is short of operand bytes. -/
theorem illegalAndTruncatedEncodings : Obligations.IllegalAndTruncatedEncodings := by
  refine ⟨fun p op rest hop => decodeOperands_illegalOpcode p rest ?_, fun p i n hi hpos hlt => ?_⟩
  · exact hop.imp (congrArg BitVec.toNat) BitVec.le_def.mp
  · obtain ⟨n, rfl⟩ := Nat.exists_eq_succ_of_ne_zero hpos.ne'
    exact decodeOperands_take_encodeOperands hi (Nat.lt_of_succ_lt_succ hlt)

end Sys2Proof
end

section
/-! PROOFS. The bytes the block forms and their wire formats (30_encoding R61 to R74, R86, R195): the fields of the address and
config bytes, a receiver's reading of frames, the counts of events and delays, and the pseudo-instructions. -/

namespace Sys2Proof.Params

/-! ## The address byte and the config byte -/

/-- Bits 7:1 of the address byte are the low seven bits of the chip address (30_encoding R62). -/
theorem addr8_extractLsb' (p : Params) (i : Nat) :
    (p.addr8 i).extractLsb' 1 7 = (0x50#8 ||| p.chipCs.getD i 0#8).extractLsb' 0 7 := by
  ext k hk
  simp [addr8, BitVec.getLsbD_shiftLeft]
  omega

/-- The fixed bits of the chip address cover chip-select bits 6 and 4 (30_encoding R61). -/
theorem or_and_inert (cs : Byte) : 0x50#8 ||| (cs &&& 0xAF#8) = 0x50#8 ||| cs := by
  revert cs
  decide

theorem addr8_of_inert {p q : Params} (h : q.chipCs = p.chipCs.map (fun cs => cs &&& 0xAF#8)) (i : Nat) :
    q.addr8 i = p.addr8 i := by
  have hget : q.chipCs.getD i 0#8 = p.chipCs.getD i 0#8 &&& 0xAF#8 := by
    rw [h]
    exact List.getD_map _ 0#8 (fun cs => cs &&& 0xAF#8)
  rw [addr8, addr8, hget, or_and_inert]

/-- A role in bits 7:6 and a run bit in bit 0 stand apart (30_encoding R68). -/
theorem role_or_run_fields (role : BitVec 2) (run : BitVec 1) :
    ((role.setWidth 8 <<< 6) ||| run.setWidth 8 : Byte).extractLsb' 6 2 = role ∧
    ((role.setWidth 8 <<< 6) ||| run.setWidth 8 : Byte).extractLsb' 1 5 = 0#5 ∧
    ((role.setWidth 8 <<< 6) ||| run.setWidth 8 : Byte).extractLsb' 0 1 = run := by
  revert role run
  decide

end Sys2Proof.Params

namespace Sys2Proof.Machine

/-- Settles O32: the shift by one leaves bit 0 clear for the write bit, and the fixed bits cover the inert ones. -/
theorem addressByteFields : Obligations.AddressByteFields :=
  fun p i _ => ⟨p.addr8_extractLsb' i, p.addr8_even i, writeBit_or _, fun _ hq => Params.addr8_of_inert hq i⟩

/-- Settles O34: the fields of the config byte stand apart for every role and run bit. -/
theorem configByteFields : Obligations.ConfigByteFields :=
  fun p i => Params.role_or_run_fields (if i = 0 then p.syncMasterCode else p.syncSlaveCode) p.runValue

/-- Settles O7: a nonempty stream makes progress at every step. -/
theorem nonemptyStreamAlwaysSteps : Obligations.NonemptyStreamAlwaysSteps := fun _ => step_progress

/-! ## A receiver's reading of frames -/

/-- The bytes of a frame and the STOP after them, from a low SCL: their bits and slots close the open frame. -/
theorem Receiver.read_bytesEvents_stop (f : Frame) (d : Nat → Bool) (r : Receiver) (hc : r.scl = false) :
    r.read (bytesEvents f d ++ stopEvents) =
      { r with scl := true, sda := true, latched := none, openBits := none,
               closed := r.closed ++ (r.openBits.map (· ++ f.flatMap slotBits)).toList,
               conditions := r.conditions ++ [.stopCondition] } := by
  induction f generalizing d r with
  | nil => simp [bytesEvents, Receiver.read_stopEvents r hc]
  | cons b f ih =>
    rw [bytesEvents, List.append_assoc, Receiver.read_append, Receiver.read_txEvents r b _ hc, ih _ _ rfl]
    simp [Function.comp_def]

/-- A frame on a released bus is one closed frame between a START and a STOP condition. -/
theorem Receiver.read_frameEvents (f : Frame) (d : Nat → Bool) (r : Receiver) (hc : r.scl = true) (hd : r.sda = true)
    (ho : r.openBits = none) :
    r.read (frameEvents f d) =
      { r with latched := none, closed := r.closed ++ [f.flatMap slotBits],
               conditions := r.conditions ++ [.startCondition, .stopCondition] } := by
  rw [frameEvents, List.append_assoc, Receiver.read_append, Receiver.read_startEvents r hc hd,
    Receiver.read_bytesEvents_stop _ _ _ rfl]
  simp [hc, hd, ho]

/-- Frames on a released bus, one after the other. -/
theorem Receiver.read_framesEvents (fs : List Frame) (d : Nat → Bool) (r : Receiver) (hc : r.scl = true) (hd : r.sda = true)
    (ho : r.openBits = none) :
    ∃ l, r.read (framesEvents fs d) =
      { r with latched := l, closed := r.closed ++ fs.map (·.flatMap slotBits),
               conditions := r.conditions ++ (List.replicate fs.length [.startCondition, .stopCondition]).flatten } := by
  induction fs generalizing d r with
  | nil => exact ⟨r.latched, by simp [framesEvents]⟩
  | cons f fs ih =>
    rw [framesEvents, Receiver.read_append, Receiver.read_frameEvents f d r hc hd ho]
    obtain ⟨l, hl⟩ := ih (fun n => d (n + f.length))
      { r with latched := none, closed := r.closed ++ [f.flatMap slotBits],
               conditions := r.conditions ++ [.startCondition, .stopCondition] } hc hd ho
    exact ⟨l, by rw [hl]; simp [List.replicate_succ]⟩

/-- A frame's bits read back as the frame. -/
theorem bytesOfBits_flatMap_slotBits (f : Frame) : bytesOfBits (f.flatMap slotBits) = f := by
  induction f with
  | nil => rfl
  | cons b f ih => rw [List.flatMap_cons, bytesOfBits_slotBits, ih]

/-- Settles O50: each frame closes with its own bits, and the bits of a frame read back as its bytes. -/
theorem wireReadsFramesBack : Obligations.WireReadsFramesBack := by
  intro fs d r hc hd ho
  obtain ⟨l, hl⟩ := Receiver.read_framesEvents fs d r hc hd ho
  rw [hl]
  refine ⟨?_, rfl, hc, hd, ho⟩
  simp [Receiver.frames, Function.comp_def, bytesOfBits_flatMap_slotBits]

/-! ## Counts of events and delays -/

theorem delaysOf_append (xs ys : List Event) : delaysOf (xs ++ ys) = delaysOf xs + delaysOf ys := by
  simp [delaysOf]

theorem txEvents_counts (b : Byte) (v : Bool) : (txEvents b v).length = 28 ∧ delaysOf (txEvents b v) = 27 := ⟨rfl, rfl⟩

theorem bytesEvents_counts (bytes : List Byte) (d : Nat → Bool) :
    (bytesEvents bytes d).length = 28 * bytes.length ∧ delaysOf (bytesEvents bytes d) = 27 * bytes.length := by
  induction bytes generalizing d with
  | nil => exact ⟨rfl, rfl⟩
  | cons b bytes ih =>
    obtain ⟨hlen, hdelays⟩ := ih fun n => d (n + 1)
    obtain ⟨hlen₁, hdelays₁⟩ := txEvents_counts b (d 0)
    rw [bytesEvents, List.length_append, delaysOf_append, hlen, hdelays, hlen₁, hdelays₁, List.length_cons]
    omega

/-- A frame makes 28 events and 27 delays for each byte, and seven of each for its START and STOP (30_encoding R74). -/
theorem frameEvents_counts (f : Frame) (d : Nat → Bool) :
    (frameEvents f d).length = 7 + 28 * f.length ∧ delaysOf (frameEvents f d) = 7 + 27 * f.length := by
  have hstart : startEvents.length = 4 ∧ delaysOf startEvents = 4 := ⟨rfl, rfl⟩
  have hstop : stopEvents.length = 3 ∧ delaysOf stopEvents = 3 := ⟨rfl, rfl⟩
  obtain ⟨hlen, hdelays⟩ := bytesEvents_counts f d
  simp only [frameEvents, List.length_append, delaysOf_append]
  omega

theorem framesEvents_counts (fs : List Frame) (d : Nat → Bool) :
    (framesEvents fs d).length = 7 * fs.length + 28 * slotCount fs ∧
      delaysOf (framesEvents fs d) = 7 * fs.length + 27 * slotCount fs := by
  induction fs generalizing d with
  | nil => exact ⟨rfl, rfl⟩
  | cons f fs ih =>
    obtain ⟨hlen, hdelays⟩ := ih fun n => d (n + f.length)
    obtain ⟨hlen₁, hdelays₁⟩ := frameEvents_counts f d
    rw [framesEvents, List.length_append, delaysOf_append, hlen, hdelays, hlen₁, hdelays₁, List.length_cons, slotCount_cons]
    omega

/-- Settles O51: START, STOP, TX and RX are fixed lists, and every frame is counted by its length. -/
theorem eventAndDelayCounts : Obligations.EventAndDelayCounts := by
  intro p b reg v page data bit sendAck d
  obtain ⟨hwrite, hwrite'⟩ := frameEvents_counts [b, reg, v] d
  obtain ⟨hburst, hburst'⟩ := frameEvents_counts (b :: reg :: data) d
  obtain ⟨hselect, hselect'⟩ := framesEvents_counts (selectFrames p b page) d
  simp only [List.length_cons] at hburst hburst'
  exact ⟨rfl, rfl, rfl, rfl, rfl, rfl, rfl, rfl, hwrite, hwrite', by omega, by omega, hselect, hselect'⟩

/-! ## The pseudo-instructions -/

/-- A command whose plan has a frame completes as its frames and the plan's cache say. -/
theorem Effect.finish_ofPlan_of_frames {plan : Plan} (h : plan.1 ≠ []) (s : State) :
    (Effect.ofPlan plan s).finish s = { ranFrames plan.1 s with cache := plan.2 } := by
  simp [Effect.finish, Effect.apply, Effect.ofPlan, Effect.quiet, complete, ranFrames, h]

theorem addressCheck_of_configured {p : Params} {addr : Byte} (h : ∃ i < p.nchips, p.addr8 i = addr) :
    addressCheck p addr = none := by
  have hconf := (p.configured_iff addr).mpr h
  obtain ⟨i, -, rfl⟩ := h
  simp only [addressCheck, p.addr8_even i, hconf, Bool.false_eq_true, if_false, if_true]

/-- WRITE_REG to a global register of a configured chip: one frame, and the page cache stays (41_chip_driver R115). -/
theorem exec_writeReg_global {s : State} {addr : Byte} {reg : RegId} (value : Byte)
    (ha : ∃ i < s.cfg.nchips, s.cfg.addr8 i = addr) (hg : s.cfg.isGlobal reg = true) :
    exec (.writeReg addr reg value) s = .next (ranFrames [[addr, regOffset reg, value]] s) := by
  rw [exec_eq, operandCheck, addressCheck_of_configured ha, effectOf, planWriteReg, if_pos hg, guarded_none,
    Effect.finish_ofPlan_of_frames (List.cons_ne_nil _ _)]
  rfl

/-- Settles O49: well-formed parameters have UNLOCK_REG and PAGESEL_REG global. -/
theorem pseudoWritesBypassCache : Obligations.PseudoWritesBypassCache := by
  refine fun s a page off v => ⟨rfl, rfl, fun hwf ha => ?_⟩
  obtain ⟨-, ⟨hunlock, hpagesel, -⟩, -⟩ := s.cfg.wellFormed_iff.mp hwf
  exact ⟨congrArg (fun o => [o]) (exec_writeReg_global s.cfg.unlockMagic ha hunlock),
    congrArg (fun o => [o]) (exec_writeReg_global page ha hpagesel)⟩

end Sys2Proof.Machine
end

section
/-! PROOFS. The transport (40_transport): the whole next state of START, STOP, TX and RX, and the conditions that a receiver reads
in their line sequences. -/

namespace Sys2Proof

theorem decodeRx_of_bad_operand {b : Byte} (rest : List Byte) (h0 : b ≠ 0x00#8) (h1 : b ≠ 0x01#8) :
    decodeRx b rest = .rejected .badAckOperand rest := by
  simp only [decodeRx, if_neg h0, if_neg h1]

end Sys2Proof

namespace Sys2Proof.Machine

/-! ## The whole next state -/

/-- Settles O15: the effect of START read off its equation, and the encoding of START. -/
theorem startDrivesTheStartSequence : Obligations.StartDrivesTheStartSequence :=
  ⟨exec_eq .start, fun p rest => decodeGivesEncodedCommand p .start rest rfl⟩

/-- Settles O16: the effect of STOP read off its equation, and the encoding of STOP. -/
theorem stopDrivesTheStopSequence : Obligations.StopDrivesTheStopSequence :=
  ⟨exec_eq .stop, fun p rest => decodeGivesEncodedCommand p .stop rest rfl⟩

theorem ackOf_eq_beq_false (v : Bool) : ackOf v = (v == false) := by
  cases v <;> rfl

/-- Settles O17: the effect of TX read off its equation, where an ack is a sampled low. -/
theorem transmitShiftsByteAndSamplesAck : Obligations.TransmitShiftsByteAndSamplesAck := by
  intro b s
  rw [← ackOf_eq_beq_false]
  exact exec_eq (.tx b) s

/-- Settles O18: the effect of RX read off its equation, and the last branch of its operand's decoder. -/
theorem receiveBuildsByteMsbFirst : Obligations.ReceiveBuildsByteMsbFirst :=
  ⟨fun sendAck => exec_eq (.rx sendAck), fun _ _ rest => decodeRx_of_bad_operand rest⟩

/-! ## What one event does to a receiver's levels and conditions (10_state R28) -/

namespace Receiver

section
variable (r : Receiver) (b : Bool)

@[simp] theorem onEvent_driveSda : r.onEvent (.driveSda b) = r.onSda b := rfl
@[simp] theorem onEvent_driveScl : r.onEvent (.driveScl b) = r.onScl b := rfl
@[simp] theorem onEvent_sample : r.onEvent (.sample b) = r := rfl

@[simp] theorem onSda_scl : (r.onSda b).scl = r.scl := by
  unfold onSda
  split_ifs <;> rfl

@[simp] theorem onSda_sda : (r.onSda b).sda = b := by
  unfold onSda
  split_ifs <;> rfl

@[simp] theorem onScl_scl : (r.onScl b).scl = b := by
  cases hc : r.scl <;> cases b <;> simp [onScl, hc]

@[simp] theorem onScl_sda : (r.onScl b).sda = r.sda := by
  unfold onScl
  split_ifs <;> rfl

/-- A condition is a change of SDA. -/
@[simp] theorem onScl_conditions : (r.onScl b).conditions = r.conditions := by
  unfold onScl
  split_ifs <;> rfl

end

variable {r : Receiver}

theorem onSda_conditions_of_low (b : Bool) (hc : r.scl = false) : (r.onSda b).conditions = r.conditions := by
  simp [onSda, hc]

/-- A release of SDA makes no condition where SDA is not held low during a high SCL. -/
theorem onSda_true_conditions_of_not_held (h : r.scl = true → r.sda = true) : (r.onSda true).conditions = r.conditions := by
  cases hc : r.scl with
  | false => exact onSda_conditions_of_low true hc
  | true => simp [onSda, h hc]

theorem onSda_false_conditions_of_idle (hc : r.scl = true) (hd : r.sda = true) :
    (r.onSda false).conditions = r.conditions ++ [.startCondition] := by
  simp [onSda, hc, hd]

theorem onSda_true_conditions_of_held (hc : r.scl = true) (hd : r.sda = false) :
    (r.onSda true).conditions = r.conditions ++ [.stopCondition] := by
  simp [onSda, hc, hd]

/-! ## Bit cells -/

@[simp] theorem read_cellEvents_scl (r : Receiver) (b : Bool) : (r.read (cellEvents b)).scl = false := by
  simp [cellEvents]

theorem read_cellEvents_conditions (r : Receiver) (b : Bool) :
    (r.read (cellEvents b)).conditions = (r.onSda b).conditions := by
  simp [cellEvents]

theorem read_cellEvents_conditions_of_low (b : Bool) (hc : r.scl = false) :
    (r.read (cellEvents b)).conditions = r.conditions := by
  rw [read_cellEvents_conditions, onSda_conditions_of_low b hc]

@[simp] theorem read_rxCellEvents_scl (r : Receiver) (v : Bool) : (r.read (rxCellEvents v)).scl = false := by
  simp [rxCellEvents]

@[simp] theorem read_rxCellEvents_conditions (r : Receiver) (v : Bool) :
    (r.read (rxCellEvents v)).conditions = r.conditions := by
  simp [rxCellEvents]

/-! ## Transport sequences -/

/-- START makes its condition at the fall of SDA; the release before it makes none. -/
theorem read_startEvents_conditions (h : r.scl = true → r.sda = true) :
    (r.read startEvents).conditions = r.conditions ++ [.startCondition] := by
  simp [startEvents, onSda_false_conditions_of_idle, onSda_true_conditions_of_not_held h]

/-- From an idle bus the first event of STOP is a START condition (40_transport R93). -/
theorem read_stopEvents_conditions_of_idle (hc : r.scl = true) (hd : r.sda = true) :
    (r.read stopEvents).conditions = r.conditions ++ [.startCondition, .stopCondition] := by
  simp [stopEvents, onSda_true_conditions_of_held, onSda_false_conditions_of_idle hc hd]

/-- Only the first write of TX can make a condition: after it SDA changes while SCL is low. -/
theorem read_txEvents_conditions (r : Receiver) (b : Byte) (v : Bool) :
    (r.read (txEvents b v)).conditions = (r.onSda (b.getLsbD 7)).conditions := by
  simp [txEvents, read_append, onSda_conditions_of_low, read_cellEvents_conditions_of_low, read_cellEvents_conditions r]

/-- From an idle bus TX makes a START condition exactly when bit 7 is 0 (40_transport R94). -/
theorem read_txEvents_conditions_of_idle (b : Byte) (v : Bool) (hc : r.scl = true) (hd : r.sda = true) :
    (r.read (txEvents b v)).conditions = r.conditions ++ (if b.getLsbD 7 then [] else [.startCondition]) := by
  rw [read_txEvents_conditions]
  cases b.getLsbD 7 with
  | false => exact onSda_false_conditions_of_idle hc hd
  | true => simpa using onSda_true_conditions_of_not_held fun _ => hd

/-- RX releases SDA before its cells and writes it next while SCL is low (40_transport R96). -/
theorem read_rxEvents_conditions (sendAck : Bool) (d : Nat → Bool) (h : r.scl = true → r.sda = true) :
    (r.read (rxEvents sendAck d)).conditions = r.conditions := by
  simp [rxEvents, read_append, onSda_conditions_of_low, onSda_true_conditions_of_not_held h]

end Receiver

/-- Settles O19: the conditions of each sequence, from a bus where SDA is high whenever SCL is, a low SCL and an idle bus. -/
theorem transportConditionsOnTheWire : Obligations.TransportConditionsOnTheWire := by
  refine fun r b v sendAck d => ⟨fun h => ⟨?_, ?_⟩, fun hc => ⟨?_, ?_⟩, fun hc hd => ⟨?_, ?_⟩⟩
  · exact Receiver.read_startEvents_conditions h
  · exact Receiver.read_rxEvents_conditions sendAck d h
  · rw [Receiver.read_stopEvents r hc]
  · rw [Receiver.read_txEvents r b v hc]
  · exact Receiver.read_stopEvents_conditions_of_idle hc hd
  · exact Receiver.read_txEvents_conditions_of_idle b v hc hd

end Sys2Proof.Machine
end

section
/-! PROOFS. The chip driver (41_chip_driver R111 to R124): the operand checks, the cache keys, the transaction, and the whole next state
of each driver command but RENDER. -/

namespace Sys2Proof

/-! ## Operand checks -/

theorem addressCheck_of_odd (p : Params) {addr : Byte} (h : addr.getLsbD 0 = true) :
    addressCheck p addr = some .oddAddress := by
  rw [addressCheck, if_pos h]

theorem addressCheck_of_unconfigured {p : Params} {addr : Byte} (he : addr.getLsbD 0 = false)
    (h : ∀ i < p.nchips, p.addr8 i ≠ addr) : addressCheck p addr = some .unconfiguredAddress := by
  have hc : p.configured addr = false := by
    rw [← Bool.not_eq_true, p.configured_iff]
    exact fun ⟨i, hi, ha⟩ => h i hi ha
  rw [addressCheck, he, hc]
  rfl

/-- The address checks pass exactly for a configured address: every configured address is even (30_encoding R62). -/
theorem addressCheck_eq_none_iff (p : Params) (addr : Byte) :
    addressCheck p addr = none ↔ ∃ i < p.nchips, p.addr8 i = addr := by
  refine ⟨fun h => ?_, Machine.addressCheck_of_configured⟩
  rw [← p.configured_iff]
  cases hc : p.configured addr with
  | true => rfl
  | false =>
    simp only [addressCheck, hc] at h
    split at h <;> cases h

/-- SELECT_PAGE passes its checks for a configured address and a page that is not the global marker. -/
theorem operandCheck_selectPage_eq_none_iff (p : Params) (addr page : Byte) :
    operandCheck p (.selectPage addr page) = none ↔ addressCheck p addr = none ∧ page ≠ p.globalMarker := by
  simp only [operandCheck]
  split <;> simp [*]

theorem operandCheck_selectPage_of_addressCheck {p : Params} {addr : Byte} {r : RefusalReason} (page : Byte)
    (h : addressCheck p addr = some r) : operandCheck p (.selectPage addr page) = some r := by
  simp only [operandCheck, h]

theorem operandCheck_selectPage_globalMarker {p : Params} {addr : Byte} (h : addressCheck p addr = none) :
    operandCheck p (.selectPage addr p.globalMarker) = some .globalPage := by
  simp only [operandCheck, h, if_true]

/-! ## Registers, addresses and keys -/

theorem Params.isGlobal_iff (p : Params) (reg : RegId) : p.isGlobal reg = true ↔ regPage reg = p.globalMarker := beq_iff_eq

/-- The key is the 7-bit address modulo BUS_CHIP_COUNT (41_chip_driver R111). -/
theorem Params.key_eq (p : Params) (addr : Byte) : p.key addr = addr.toNat / 2 % p.busChipCount := by
  rw [key, BitVec.toNat_ushiftRight, Nat.shiftRight_eq_div_pow, Nat.pow_one]

theorem Params.addr8_inj {p : Params} (h : p.wellFormed = true) {i j : Nat} (hi : i < p.nchips) (hj : j < p.nchips)
    (ha : p.addr8 i = p.addr8 j) : i = j :=
  p.key_inj h hi hj (congrArg p.key ha)

/-- Settles O33: R9 item 4 makes the keys of the chips distinct. -/
theorem everyChipHasItsOwnKey : Obligations.EveryChipHasItsOwnKey :=
  fun p hwf _ hi _ hj => ⟨p.key_eq _, Params.key_lt hwf _, Params.key_inj hwf hi hj⟩

end Sys2Proof

namespace Sys2Proof.Machine

/-! ## One transaction -/

theorem tx_inCritical (b : Byte) (s : State) : (tx b s).2.inCritical = s.inCritical := by
  rw [tx_eq]
  rfl

theorem txAll_inCritical (bytes : List Byte) (ok : Bool) (s : State) : (txAll bytes ok s).2.inCritical = s.inCritical := by
  induction bytes generalizing ok s with
  | nil => rfl
  | cons b rest ih => rw [txAll, ih, tx_inCritical]

/-- Settles O26: a transaction is one frame, and no sequence of the transport leaves the critical section. -/
theorem busWriteIsOneCriticalTransaction : Obligations.BusWriteIsOneCriticalTransaction := by
  intro addr bytes s
  refine ⟨?_, ?_, rfl, fun n => ?_, transaction_inCritical ..⟩
  · rw [writeBit_or, busWrite_eq]
    simp [sentFrames, dropDraws, framesEvents, frameEvents, Nat.add_comm]
  · have hlength := (frameEvents_counts ((addr ||| Config.writeBit) :: bytes) s.drawAt).1
    rw [frameEvents, List.length_cons] at hlength
    omega
  · rw [txAll_inCritical, tx_inCritical]
    rfl

/-! ## How a driver command ends -/

theorem refuse_eq_refusedAs (r : RefusalReason) (s : State) : refuse r s = s.refusedAs r := by
  unfold State.refusedAs
  cases h : s.refusedMark <;> simp [refuse_eq, h]

theorem exec_refused {i : Instr} {s : State} {r : RefusalReason} (h : operandCheck s.cfg i = some r) :
    exec i s = .next (s.refusedAs r) := by
  rw [← refuse_eq_refusedAs]
  exact (exec_next_iff ..).mpr (.inl ⟨r, h, rfl⟩)

/-- A command whose effect is a plan with frames. -/
theorem exec_of_frames {i : Instr} {s : State} {plan : Plan} (hcheck : operandCheck s.cfg i = none)
    (hc : completes s.cfg i = true) (he : effectOf i s = Effect.ofPlan plan s) (hframes : plan.1 ≠ []) :
    exec i s = .next { ranFrames plan.1 s with cache := plan.2 } :=
  (exec_next_iff ..).mpr (.inr ⟨hcheck, hc, by rw [he, Effect.finish_ofPlan_of_frames hframes]⟩)

/-! ## Plans on a hit, on a miss and for a global register -/

section
variable {p : Params} {addr : Byte} {cache : List CacheEntry}

theorem planSelect_hit {page : Byte} (h : cache.getD (p.key addr) .unknown = .page page) :
    planSelect p addr page cache = ([], cache) := if_pos h

theorem planSelect_miss {page : Byte} (h : cache.getD (p.key addr) .unknown ≠ .page page) :
    planSelect p addr page cache = (selectFrames p addr page, cache.set (p.key addr) (.page page)) := if_neg h

variable {reg : RegId}

theorem planWriteReg_global (value : Byte) (hg : regPage reg = p.globalMarker) :
    planWriteReg p addr reg value cache = ([[addr, regOffset reg, value]], cache) :=
  if_pos ((p.isGlobal_iff reg).mpr hg)

theorem planWriteReg_paged (value : Byte) (hp : regPage reg ≠ p.globalMarker) :
    planWriteReg p addr reg value cache = planBurst p addr reg [value] cache :=
  if_neg (mt (p.isGlobal_iff reg).mp hp)

theorem planSeq_global (data : List Byte) (hg : regPage reg = p.globalMarker) :
    planSeq p addr reg data cache = ([], cache) :=
  if_pos ((p.isGlobal_iff reg).mpr hg)

theorem planSeq_paged (data : List Byte) (hp : regPage reg ≠ p.globalMarker) :
    planSeq p addr reg data cache = planBurst p addr reg data cache :=
  if_neg (mt (p.isGlobal_iff reg).mp hp)

theorem planBurst_hit (data : List Byte) (h : cache.getD (p.key addr) .unknown = .page (regPage reg)) :
    planBurst p addr reg data cache = ([addr :: regOffset reg :: data], cache) := by
  simp only [planBurst, planSelect_hit h, List.nil_append]

theorem planBurst_miss (data : List Byte) (h : cache.getD (p.key addr) .unknown ≠ .page (regPage reg)) :
    planBurst p addr reg data cache =
      (selectFrames p addr (regPage reg) ++ [addr :: regOffset reg :: data],
        cache.set (p.key addr) (.page (regPage reg))) := by
  simp only [planBurst, planSelect_miss h]

end

/-! ## SELECT_PAGE, WRITE_REG, WRITE_SEQ and DRIVER_INIT -/

/-- A plan without frames completes with the result true and changes nothing else. -/
theorem Effect.finish_ofPlan_nil (s : State) :
    (Effect.ofPlan ([], s.cache) s).finish s = { s with results := s.results ++ [.bool true], cmdIndex := s.cmdIndex + 1 } := by
  simp [Effect.finish, Effect.apply, Effect.ofPlan, Effect.quiet, complete, framesEvents, allAcked_zero]

/-- Settles O20: the checks in their order, then the two branches of the page select. -/
theorem selectPageHitOrExchange : Obligations.SelectPageHitOrExchange := by
  refine fun s addr page => ⟨fun hodd => ?_, fun heven hun => ?_, fun i hi ha => ⟨fun hg => ?_, fun hp => ⟨fun hhit => ?_,
    fun hmiss => ?_⟩⟩⟩
  · exact exec_refused (operandCheck_selectPage_of_addressCheck page (addressCheck_of_odd _ hodd))
  · exact exec_refused (operandCheck_selectPage_of_addressCheck page (addressCheck_of_unconfigured heven hun))
  · subst hg
    exact exec_refused (operandCheck_selectPage_globalMarker (addressCheck_of_configured ⟨i, hi, ha⟩))
  all_goals have hcheck := (operandCheck_selectPage_eq_none_iff ..).mpr ⟨addressCheck_of_configured ⟨i, hi, ha⟩, hp⟩
  · refine (exec_next_iff ..).mpr (.inr ⟨hcheck, rfl, ?_⟩)
    rw [effectOf, planSelect_hit hhit, Effect.finish_ofPlan_nil]
  · exact exec_of_frames hcheck rfl (congrArg (Effect.ofPlan · s) (planSelect_miss hmiss)) (List.cons_ne_nil _ _)

/-- Settles O21: the address checks, then the plan for a global register, on a hit and on a miss. -/
theorem writeRegSelectsThenWrites : Obligations.WriteRegSelectsThenWrites := by
  refine fun s addr reg value => ⟨fun hodd => ?_, fun heven hun => ?_, fun i hi ha => ?_⟩
  · exact exec_refused (addressCheck_of_odd _ hodd)
  · exact exec_refused (addressCheck_of_unconfigured heven hun)
  have hcheck := addressCheck_of_configured ⟨i, hi, ha⟩
  have hexec {plan : Plan} (h : planWriteReg s.cfg addr reg value s.cache = plan) :=
    exec_of_frames (i := .writeReg addr reg value) hcheck rfl (congrArg (Effect.ofPlan · s) h)
  refine ⟨fun hg => ?_, fun hp hhit => ?_, fun hp hmiss => ?_⟩
  · exact hexec (planWriteReg_global value hg) (List.cons_ne_nil _ _)
  · exact hexec ((planWriteReg_paged value hp).trans (planBurst_hit _ hhit)) (List.cons_ne_nil _ _)
  · exact hexec ((planWriteReg_paged value hp).trans (planBurst_miss _ hmiss)) (List.cons_ne_nil _ _)

/-- A burst to a paged register is its plan: it is not rejected. -/
theorem effectOf_writeSeq_paged {s : State} {reg : RegId} (addr : Byte) (data : List Byte)
    (hp : regPage reg ≠ s.cfg.globalMarker) :
    effectOf (.writeSeq addr reg data) s = Effect.ofPlan (planBurst s.cfg addr reg data s.cache) s := by
  have hg : s.cfg.isGlobal reg = false := by rw [← Bool.not_eq_true, s.cfg.isGlobal_iff]; exact hp
  simp only [effectOf, planSeq_paged data hp, hg, Bool.not_false, Bool.and_true]
  rfl

/-- A burst to a global register is rejected: it sends nothing and answers false (60_exceptions R152). -/
theorem finish_writeSeq_global {s : State} {reg : RegId} (addr : Byte) (data : List Byte)
    (hg : regPage reg = s.cfg.globalMarker) :
    (effectOf (.writeSeq addr reg data) s).finish s =
      { s with results := s.results ++ [.bool false], cmdIndex := s.cmdIndex + 1 } := by
  rw [← finish_writeSeq, writeSeq_global _ _ _ _ ((s.cfg.isGlobal_iff reg).mpr hg)]
  rfl

/-- Settles O22: the address checks, then the rejection, and the burst on a hit and on a miss. -/
theorem writeSeqRejectsGlobalOrBursts : Obligations.WriteSeqRejectsGlobalOrBursts := by
  refine fun s addr reg data => ⟨fun hodd => ?_, fun heven hun => ?_, fun i hi ha => ?_⟩
  · exact exec_refused (addressCheck_of_odd _ hodd)
  · exact exec_refused (addressCheck_of_unconfigured heven hun)
  have hcheck := addressCheck_of_configured ⟨i, hi, ha⟩
  have hexec (hp : regPage reg ≠ s.cfg.globalMarker) {plan : Plan} (h : planBurst s.cfg addr reg data s.cache = plan) :=
    exec_of_frames (i := .writeSeq addr reg data) hcheck rfl (h ▸ effectOf_writeSeq_paged addr data hp)
  refine ⟨fun hg => ?_, fun hp hhit => ?_, fun hp hmiss => ?_⟩
  · exact (exec_next_iff ..).mpr (.inr ⟨hcheck, rfl, finish_writeSeq_global addr data hg⟩)
  · exact hexec hp (planBurst_hit data hhit) (List.cons_ne_nil _ _)
  · exact hexec hp (planBurst_miss data hmiss) (List.cons_ne_nil _ _)

/-- Settles O23: DRIVER_INIT has no operand check and writes the cache alone. -/
theorem driverInitForgetsEveryPage : Obligations.DriverInitForgetsEveryPage := fun _ => rfl

/-! ## DISPLAY_INIT -/

theorem planSelect_frames (p : Params) (addr page : Byte) (cache : List CacheEntry) :
    (planSelect p addr page cache).1 = selectFramesFrom (cache.getD (p.key addr) .unknown) p addr page := by
  unfold planSelect selectFramesFrom
  split <;> rfl

/-- From an Unknown entry a chip gets the frames of 41_chip_driver R123. -/
theorem planInit_frames {p : Params} (hwf : p.wellFormed = true) (gain : Byte) (i : Nat) {cache : List CacheEntry}
    (hlen : cache.length = p.busChipCount) (hunknown : cache.getD (p.key (p.addr8 i)) .unknown = .unknown) :
    (planInit p gain i cache).1 = initFrames p gain i := by
  obtain ⟨-, ⟨-, -, hconfig, hgcc, -, -⟩, -⟩ := p.wellFormed_iff.mp hwf
  have hmiss : cache.getD (p.key (p.addr8 i)) .unknown ≠ .page (regPage p.configReg) := by
    rw [hunknown]
    exact CacheEntry.noConfusion
  have hk : p.key (p.addr8 i) < cache.length := hlen ▸ p.key_lt hwf _
  have hentry : (cache.set (p.key (p.addr8 i)) (.page (regPage p.configReg))).getD (p.key (p.addr8 i)) .unknown =
      .page (regPage p.configReg) := by simp [hk]
  simp only [planInit, Plan.andThen, planWriteReg, hconfig, hgcc, Bool.false_eq_true, if_false, planSelect_miss hmiss,
    planSelect_frames, hentry, initFrames, List.append_assoc]

/-- Chip after chip, each from an Unknown entry: no two chips share a key. -/
theorem planEach_planInit_frames {p : Params} (hwf : p.wellFormed = true) (gain : Byte) {indices : List Nat}
    (hnodup : (indices.map fun i => p.key (p.addr8 i)).Nodup) {cache : List CacheEntry}
    (hlen : cache.length = p.busChipCount)
    (hunknown : ∀ i ∈ indices, cache.getD (p.key (p.addr8 i)) .unknown = .unknown) :
    (planEach (planInit p gain) indices cache).1 = indices.flatMap (initFrames p gain) := by
  induction indices generalizing cache with
  | nil => rfl
  | cons i rest ih =>
    obtain ⟨hi, hrest⟩ := List.forall_mem_cons.mp hunknown
    obtain ⟨hfresh, hnodup⟩ := List.nodup_cons.mp hnodup
    have hunknown' : ∀ j ∈ rest, (planInit p gain i cache).2.getD (p.key (p.addr8 j)) .unknown = .unknown := by
      intro j hj
      have hij : p.key (p.addr8 i) ≠ p.key (p.addr8 j) := fun h => hfresh (List.mem_map.mpr ⟨j, hj, h.symm⟩)
      rw [planInit_cache hwf, List.getD_eq_getElem?_getD, List.getElem?_set_ne hij, ← List.getD_eq_getElem?_getD]
      exact hrest j hj
    rw [planEach, Plan.andThen, List.flatMap_cons, planInit_frames hwf gain i hlen hi,
      ih hnodup (by rw [planInit_cache hwf, List.length_set, hlen]) hunknown']

/-- Plans that each set one entry to `e` set the entries of their keys, whatever the order. -/
theorem planEach_cache_eq_mapIdx {one : Nat → List CacheEntry → Plan} {key : Nat → Nat} {e : CacheEntry}
    (hone : ∀ i cache, (one i cache).2 = cache.set (key i) e) (indices : List Nat) (cache : List CacheEntry) :
    (planEach one indices cache).2 = cache.mapIdx fun k u => if indices.any (key · == k) then e else u := by
  induction indices generalizing cache with
  | nil => exact List.ext_getElem (by simp [planEach]) (by simp [planEach])
  | cons i rest ih =>
    rw [planEach, Plan.andThen, ih, hone]
    refine List.ext_getElem (by simp) fun k _ _ => ?_
    by_cases hk : key i = k <;> simp [hk]

/-- The plan of DISPLAY_INIT, from a cache of Unknown entries (41_chip_driver R123). -/
theorem planEach_planInit {p : Params} (hwf : p.wellFormed = true) (gain : Byte) :
    planEach (planInit p gain) (List.range p.nchips) (List.replicate p.busChipCount .unknown) =
      ((List.range p.nchips).flatMap (initFrames p gain),
        cacheSelecting p (regPage p.gccReg) (List.replicate p.busChipCount .unknown)) := by
  obtain ⟨-, -, ⟨-, -, -, -, -, hnodup⟩, -⟩ := p.wellFormed_iff.mp hwf
  exact Prod.ext
    (planEach_planInit_frames hwf gain hnodup List.length_replicate fun _ _ => getD_replicate_unknown ..)
    (planEach_cache_eq_mapIdx (planInit_cache hwf gain) ..)

theorem initFrames_flatMap_ne_nil {p : Params} (hwf : p.wellFormed = true) (gain : Byte) :
    (List.range p.nchips).flatMap (initFrames p gain) ≠ [] := by
  have h := planEach_frames_ne_nil (planInit_frames_ne_nil p gain) hwf (List.replicate p.busChipCount .unknown)
  rwa [planEach_planInit hwf] at h

/-- Settles O24: the shutdown line and its event, then the plan of every chip from the cleared cache. -/
theorem displayInitConfiguresEveryChip : Obligations.DisplayInitConfiguresEveryChip := by
  intro s gain hwf
  refine (exec_next_iff ..).mpr (.inr ⟨rfl, rfl, ?_⟩)
  rw [← finish_displayInit, forEach_initChip, completeBool_ranPlan]
  show (Effect.ofPlan (planEach (planInit s.cfg gain) _ (List.replicate s.cfg.busChipCount .unknown)) _).finish _ = _
  rw [planEach_planInit hwf, Effect.finish_ofPlan_of_frames (initFrames_flatMap_ne_nil hwf gain)]
  rfl

theorem initFrames_length (p : Params) (gain : Byte) (i : Nat) :
    (initFrames p gain i).length = if regPage p.configReg = regPage p.gccReg then 4 else 6 := by
  by_cases h : regPage p.configReg = regPage p.gccReg <;> simp [initFrames, selectFramesFrom, selectFrames, h]

theorem length_of_mem_selectFrames {p : Params} {addr page : Byte} {f : Frame} (h : f ∈ selectFrames p addr page) :
    f.length = 3 := by
  simp only [selectFrames, List.mem_cons, List.not_mem_nil, or_false] at h
  obtain rfl | rfl := h <;> rfl

theorem length_of_mem_selectFramesFrom {entry : CacheEntry} {p : Params} {addr page : Byte} {f : Frame}
    (h : f ∈ selectFramesFrom entry p addr page) : f.length = 3 := by
  unfold selectFramesFrom at h
  split at h
  · cases h
  · exact length_of_mem_selectFrames h

theorem length_of_mem_initFrames {p : Params} {gain : Byte} {i : Nat} {f : Frame} (h : f ∈ initFrames p gain i) :
    f.length = 3 := by
  simp only [initFrames, List.mem_append, List.mem_singleton] at h
  obtain ((hsel | rfl) | hsel) | rfl := h
  · exact length_of_mem_selectFrames hsel
  · rfl
  · exact length_of_mem_selectFramesFrom hsel
  · rfl

theorem slotCount_of_length {fs : List Frame} {n : Nat} (h : ∀ f ∈ fs, f.length = n) : slotCount fs = fs.length * n := by
  rw [slotCount, List.map_congr_left h, List.map_const', List.sum_replicate, smul_eq_mul]

/-- Settles O25: the trace of the next state, the frames of each chip counted, and 91 events for each frame of three bytes. -/
theorem displayInitTransactionCount : Obligations.DisplayInitTransactionCount := by
  rintro s t gain fs hwf h rfl
  rw [displayInitConfiguresEveryChip s gain hwf] at h
  obtain rfl := Host.Outcome.next.inj h
  have hthree : ∀ f ∈ (List.range s.cfg.nchips).flatMap (initFrames s.cfg gain), f.length = 3 := by
    intro f hf
    obtain ⟨i, -, hf⟩ := List.mem_flatMap.mp hf
    exact length_of_mem_initFrames hf
  refine ⟨rfl, ?_, hthree, ?_⟩
  · simp [List.length_flatMap, initFrames_length]
  · have hevents := (framesEvents_counts ((List.range s.cfg.nchips).flatMap (initFrames s.cfg gain)) s.drawAt).1
    rw [slotCount_of_length hthree] at hevents
    show (s.trace ++ [Event.driveSdn true] ++ framesEvents _ s.drawAt).length = _
    rw [List.length_append, List.length_append, hevents, List.length_singleton]
    omega

end Sys2Proof.Machine
end

section
/-! PROOFS. The page cache and the wire (41_chip_driver R119): every operation of the driver keeps the agreement of the cache with
the page-select frames that a receiver has read. -/

namespace Sys2Proof.Machine

/-! ## The page a chip was told to select -/

theorem pageToldTo_concat (p : Params) (i : Nat) (fs : List Frame) (f : Frame) :
    pageToldTo p i (fs ++ [f]) =
      if f.take 2 = [p.addr8 i, regOffset p.pageselReg] ∧ f.length = 3 then f.getLast? else pageToldTo p i fs :=
  List.foldl_concat ..

/-- A frame to another address or another offset tells the chip no page. -/
theorem pageToldTo_concat_other {p : Params} {i : Nat} {addr offset : Byte} (fs : List Frame) (data : List Byte)
    (h : addr = p.addr8 i → offset ≠ regOffset p.pageselReg) :
    pageToldTo p i (fs ++ [addr :: offset :: data]) = pageToldTo p i fs := by
  rw [pageToldTo_concat, if_neg]
  rintro ⟨htake, -⟩
  obtain ⟨haddr, hoffset⟩ : addr = p.addr8 i ∧ offset = regOffset p.pageselReg := by simpa using htake
  exact h haddr hoffset

/-- The page-select exchange tells its chip the page: the page-select frame comes last. -/
theorem pageToldTo_selectFrames (p : Params) (i : Nat) (page : Byte) (fs : List Frame) :
    pageToldTo p i (fs ++ selectFrames p (p.addr8 i) page) = some page := by
  rw [selectFrames, List.append_cons, pageToldTo_concat]
  exact if_pos ⟨rfl, rfl⟩

/-- The page-select exchange tells no other chip a page. -/
theorem pageToldTo_selectFrames_other {p : Params} {i : Nat} {addr : Byte} (page : Byte) (fs : List Frame)
    (h : addr ≠ p.addr8 i) : pageToldTo p i (fs ++ selectFrames p addr page) = pageToldTo p i fs := by
  rw [selectFrames, List.append_cons, pageToldTo_concat_other _ _ (absurd · h), pageToldTo_concat_other _ _ (absurd · h)]

/-! ## The agreement of a cache with frames -/

/-- The entry of every configured chip is Unknown or the page that the frames last told the chip to select. -/
def CacheAgrees (p : Params) (cache : List CacheEntry) (fs : List Frame) : Prop :=
  ∀ i < p.nchips, cache.getD (p.key (p.addr8 i)) .unknown = .unknown ∨
    ∃ page, cache.getD (p.key (p.addr8 i)) .unknown = .page page ∧ pageToldTo p i fs = some page

theorem coherent_iff (s : State) :
    s.Coherent ↔ CacheAgrees s.cfg s.cache (Receiver.idle.read s.trace).frames := Iff.rfl

theorem cacheAgrees_unknown (p : Params) (n : Nat) (fs : List Frame) : CacheAgrees p (List.replicate n .unknown) fs :=
  fun _ _ => .inl (getD_replicate_unknown ..)

/-- A frame at another offset than that of PAGESEL_REG keeps the agreement. -/
theorem CacheAgrees.concat {p : Params} {cache : List CacheEntry} {fs : List Frame} (h : CacheAgrees p cache fs)
    {offset : Byte} (ho : offset ≠ regOffset p.pageselReg) (addr : Byte) (data : List Byte) :
    CacheAgrees p cache (fs ++ [addr :: offset :: data]) := by
  intro i hi
  rw [pageToldTo_concat_other fs data fun _ => ho]
  exact h i hi

/-- An operation on the page cache whose frames keep the agreement. -/
def KeepsAgreement (p : Params) (op : List CacheEntry → Plan) : Prop :=
  ∀ cache fs, CacheAgrees p cache fs → CacheAgrees p (op cache).2 (fs ++ (op cache).1)

theorem getD_set_self_eq (cache : List CacheEntry) (k : Nat) (e : CacheEntry) :
    (cache.set k e).getD k .unknown = .unknown ∨ (cache.set k e).getD k .unknown = e := by
  by_cases hk : k < cache.length <;> simp [hk]

section
variable {p : Params} (hwf : p.wellFormed = true) {i : Nat} (hi : i < p.nchips)
include hwf hi

/-- A page select tells the chip the page that its entry becomes; no other chip has this key or this address. -/
theorem keepsAgreement_planSelect (page : Byte) : KeepsAgreement p (planSelect p (p.addr8 i) page) := by
  intro cache fs h
  by_cases he : cache.getD (p.key (p.addr8 i)) .unknown = .page page
  · rwa [planSelect_hit he, List.append_nil]
  rw [planSelect_miss he]
  intro j hj
  by_cases hij : i = j
  · subst hij
    exact (getD_set_self_eq cache _ (.page page)).imp id fun he => ⟨page, he, pageToldTo_selectFrames p i page fs⟩
  · rw [pageToldTo_selectFrames_other page fs (mt (p.addr8_inj hwf hi hj) hij), List.getD_eq_getElem?_getD,
      List.getElem?_set_ne (mt (p.key_inj hwf hi hj) hij), ← List.getD_eq_getElem?_getD]
    exact h j hj

theorem keepsAgreement_planBurst {reg : RegId} (hr : regOffset reg ≠ regOffset p.pageselReg) (data : List Byte) :
    KeepsAgreement p (planBurst p (p.addr8 i) reg data) := by
  intro cache fs h
  rw [planBurst, ← List.append_assoc]
  exact (keepsAgreement_planSelect hwf hi _ cache fs h).concat hr _ data

theorem keepsAgreement_planWriteReg {reg : RegId} (hr : regOffset reg ≠ regOffset p.pageselReg) (value : Byte) :
    KeepsAgreement p (planWriteReg p (p.addr8 i) reg value) := by
  intro cache fs h
  by_cases hg : regPage reg = p.globalMarker
  · rw [planWriteReg_global value hg]
    exact h.concat hr _ [value]
  · rw [planWriteReg_paged value hg]
    exact keepsAgreement_planBurst hwf hi hr [value] cache fs h

theorem keepsAgreement_planSeq {reg : RegId} (hr : regOffset reg ≠ regOffset p.pageselReg) (data : List Byte) :
    KeepsAgreement p (planSeq p (p.addr8 i) reg data) := by
  intro cache fs h
  by_cases hg : regPage reg = p.globalMarker
  · rwa [planSeq_global data hg, List.append_nil]
  · rw [planSeq_paged data hg]
    exact keepsAgreement_planBurst hwf hi hr data cache fs h

end

theorem KeepsAgreement.andThen {p : Params} {a b : List CacheEntry → Plan} (ha : KeepsAgreement p a)
    (hb : KeepsAgreement p b) : KeepsAgreement p fun cache => Plan.andThen (a cache) b := by
  intro cache fs h
  have := hb _ _ (ha cache fs h)
  rwa [List.append_assoc] at this

theorem KeepsAgreement.each {p : Params} {one : Nat → List CacheEntry → Plan} {indices : List Nat}
    (h : ∀ i ∈ indices, KeepsAgreement p (one i)) : KeepsAgreement p (planEach one indices) := by
  induction indices with
  | nil =>
    intro cache fs hc
    rwa [planEach, List.append_nil]
  | cons i rest ih =>
    obtain ⟨hi, hrest⟩ := List.forall_mem_cons.mp h
    exact hi.andThen (ih hrest)

/-- A loop over every chip keeps the agreement when its body does for every configured chip. -/
theorem KeepsAgreement.eachChip {p : Params} {one : Nat → List CacheEntry → Plan}
    (h : ∀ i < p.nchips, KeepsAgreement p (one i)) : KeepsAgreement p (planEach one (List.range p.nchips)) :=
  .each fun i hi => h i (List.mem_range.mp hi)

/-! ## From the agreement of a plan to the wire -/

/-- A command that leaves the bus idle and whose events a receiver reads as the frames of a plan keeps the wire at rest, and the
plan's agreement is the state's coherence. -/
theorem Effect.finish_coherent {e : Effect} {s : State} (plan : Plan) (hrest : s.WireAtRest)
    (hidle : e.sclOut = true ∧ e.sdaOut = true) (hcache : e.cache = plan.2)
    (hread : ∀ (r : Receiver) (d : Nat → Bool), r.read (e.events d) = r.read (framesEvents plan.1 d))
    (hagrees : CacheAgrees s.cfg plan.2 ((Receiver.idle.read s.trace).frames ++ plan.1)) :
    (e.finish s).WireAtRest ∧ (e.finish s).Coherent := by
  obtain ⟨-, hscl, hsda, hopen⟩ := hrest
  obtain ⟨hframes, -, hscl', hsda', hopen'⟩ := wireReadsFramesBack plan.1 s.drawAt _ hscl hsda hopen
  rw [coherent_iff, State.WireAtRest]
  simp only [Effect.finish_trace, Receiver.read_append, hread, Effect.finish_cfg, Effect.finish_cache, hcache]
  exact ⟨⟨hidle, hscl', hsda', hopen'⟩, hframes ▸ hagrees⟩

/-- The same for a command that is its plan. -/
theorem Effect.finish_ofPlan_coherent {s : State} {op : List CacheEntry → Plan} (hrest : s.WireAtRest) (hcoh : s.Coherent)
    (hkeeps : KeepsAgreement s.cfg op) :
    ((Effect.ofPlan (op s.cache) s).finish s).WireAtRest ∧ ((Effect.ofPlan (op s.cache) s).finish s).Coherent :=
  Effect.finish_coherent _ hrest (Effect.ofPlan_idle_of_idle _ hrest.1) rfl (fun _ _ => rfl) (hkeeps _ _ hcoh)

/-- Settles O31: a refusal appends nothing, and the plan of every other command that assumption A2 admits keeps the agreement. -/
theorem pageCacheAgreesWithWire : Obligations.PageCacheAgreesWithWire := by
  intro i s t hinv hrest hcoh halone h
  have hwf := hinv.params
  obtain ⟨r, -, rfl⟩ | ⟨hcheck, -, rfl⟩ := (exec_next_iff i s t).mp h
  · exact ⟨hrest, hcoh⟩
  cases i with
  | start | stop | tx _ | rx _ => cases halone
  | selectPage addr page =>
    obtain ⟨haddr, -⟩ := (operandCheck_selectPage_eq_none_iff ..).mp hcheck
    obtain ⟨k, hk, rfl⟩ := (addressCheck_eq_none_iff ..).mp haddr
    exact Effect.finish_ofPlan_coherent hrest hcoh (keepsAgreement_planSelect hwf hk page)
  | writeReg addr reg value =>
    obtain ⟨k, hk, rfl⟩ := (addressCheck_eq_none_iff ..).mp hcheck
    exact Effect.finish_ofPlan_coherent hrest hcoh (keepsAgreement_planWriteReg hwf hk (bne_iff_ne.mp halone) value)
  | writeSeq addr reg data =>
    obtain ⟨k, hk, rfl⟩ := (addressCheck_eq_none_iff ..).mp hcheck
    exact Effect.finish_ofPlan_coherent hrest hcoh (keepsAgreement_planSeq hwf hk (bne_iff_ne.mp halone) data)
  | driverInit =>
    exact Effect.finish_coherent ([], _) hrest hrest.1 rfl (fun _ _ => rfl) (cacheAgrees_unknown _ _ _)
  | displayInit gain =>
    obtain ⟨hconfig, hgcc⟩ : regOffset s.cfg.configReg ≠ regOffset s.cfg.pageselReg ∧
        regOffset s.cfg.gccReg ≠ regOffset s.cfg.pageselReg := by simpa [leavesPageselAlone] using halone
    have hkeeps : KeepsAgreement s.cfg (planEach (planInit s.cfg gain) (List.range s.cfg.nchips)) :=
      .eachChip fun k hk => (keepsAgreement_planWriteReg hwf hk hconfig _).andThen (keepsAgreement_planWriteReg hwf hk hgcc gain)
    exact Effect.finish_coherent _ hrest (Effect.ofPlan_idle_of_idle _ hrest.1) rfl (fun _ _ => rfl)
      (hkeeps _ _ (cacheAgrees_unknown _ _ _))
  | render d =>
    obtain ⟨hpwm, honoff⟩ : regOffset s.cfg.pwmRegStart ≠ regOffset s.cfg.pageselReg ∧
        regOffset s.cfg.onoffRegStart ≠ regOffset s.cfg.pageselReg := by simpa [leavesPageselAlone] using halone
    have hkeeps : KeepsAgreement s.cfg (planEach (planRender s.cfg d) (List.range s.cfg.nchips)) :=
      .eachChip fun k hk => (keepsAgreement_planSeq hwf hk hpwm _).andThen (keepsAgreement_planSeq hwf hk honoff _)
    exact Effect.finish_ofPlan_coherent hrest hcoh hkeeps

end Sys2Proof.Machine
end

section
/-! PROOFS. The pixel-grid serializer (42_serializer R130 to R143): the chip regions, the scratch buffers as the cells their pixels
write, and the whole next state of RENDER with the transactions it sends. -/

namespace Sys2Proof

/-! ## Chip regions -/

/-- The tiles of width `b` that start inside a line of `a` pixels. -/
theorem lt_ceilDiv_iff {a b t : Nat} (hb : 1 ≤ b) : t < ceilDiv a b ↔ t * b < a := by
  rw [ceilDiv, Nat.lt_iff_add_one_le, Nat.le_div_iff_mul_le hb, Nat.succ_mul]
  omega

theorem div_lt_ceilDiv {a b x : Nat} (hb : 1 ≤ b) (hx : x < a) : x / b < ceilDiv a b :=
  (lt_ceilDiv_iff hb).mpr (Nat.lt_of_le_of_lt (Nat.div_mul_le_self x b) hx)

namespace Params

variable {p : Params}

theorem typesOk_of_wellFormed (hwf : p.wellFormed = true) : p.TypesOk := (p.wellFormed_iff.mp hwf).1

theorem le_lastCol_iff (ht : p.TypesOk) (i x : Nat) : x ≤ p.lastCol i ↔ x < p.firstCol i + p.chipWidth ∧ x < p.width := by
  obtain ⟨hw, -, hcw, -⟩ := ht
  rw [lastCol]
  omega

theorem le_lastRow_iff (ht : p.TypesOk) (i y : Nat) : y ≤ p.lastRow i ↔ y < p.firstRow i + p.chipHeight ∧ y < p.height := by
  obtain ⟨-, hh, -, hch, -⟩ := ht
  rw [lastRow]
  omega

/-- A region is the pixels of the grid in the tile of its chip (42_serializer R131). -/
theorem inRegion_iff (ht : p.TypesOk) (i x y : Nat) :
    p.inRegion i x y ↔ x < p.width ∧ y < p.height ∧ x / p.chipWidth = i % p.nx ∧ y / p.chipHeight = i / p.nx := by
  have hcol := le_lastCol_iff ht i x
  have hrow := le_lastRow_iff ht i y
  obtain ⟨-, -, hcw, hch, -⟩ := ht
  have hx : x / p.chipWidth = i % p.nx ↔ p.firstCol i ≤ x ∧ x < p.firstCol i + p.chipWidth := by
    rw [Nat.div_eq_iff hcw, firstCol]
    omega
  have hy : y / p.chipHeight = i / p.nx ↔ p.firstRow i ≤ y ∧ y < p.firstRow i + p.chipHeight := by
    rw [Nat.div_eq_iff hch, firstRow]
    omega
  rw [inRegion, hcol, hrow, hx, hy]
  tauto

/-- The chip in whose tile the pixel `(x, y)` lies (42_serializer R131). -/
def chipAt (p : Params) (x y : Nat) : Nat := p.nx * (y / p.chipHeight) + x / p.chipWidth

theorem chipAt_lt_nchips (ht : p.TypesOk) {x y : Nat} (hx : x < p.width) (hy : y < p.height) : p.chipAt x y < p.nchips := by
  obtain ⟨-, -, hcw, hch, -⟩ := ht
  rw [nchips, Nat.mul_comm]
  exact Nat.mul_add_lt_mul_of_lt_of_lt (div_lt_ceilDiv hch hy) (div_lt_ceilDiv hcw hx)

/-- The regions are disjoint and cover the grid (42_serializer R132). -/
theorem inRegion_iff_eq_chipAt (ht : p.TypesOk) (i : Nat) {x y : Nat} (hx : x < p.width) (hy : y < p.height) :
    p.inRegion i x y ↔ i = p.chipAt x y := by
  rw [inRegion_iff ht, chipAt]
  obtain ⟨-, -, hcw, -⟩ := ht
  have htile : x / p.chipWidth < p.nx := div_lt_ceilDiv hcw hx
  constructor
  · rintro ⟨-, -, hcol, hrow⟩
    rw [hcol, hrow, Nat.div_add_mod]
  · rintro rfl
    refine ⟨hx, hy, ?_, ?_⟩
    · rw [Nat.mul_add_mod, Nat.mod_eq_of_lt htile]
    · rw [Nat.mul_add_div (Nat.zero_lt_of_lt htile), Nat.div_eq_of_lt htile, Nat.add_zero]

/-- The first pixel of every tile lies in the grid. -/
theorem firstCol_lt_and_firstRow_lt (ht : p.TypesOk) {i : Nat} (hi : i < p.nchips) :
    p.firstCol i < p.width ∧ p.firstRow i < p.height := by
  obtain ⟨-, -, hcw, hch, -⟩ := ht
  have hnx : 0 < p.nx := Nat.pos_of_mul_pos_right (Nat.zero_lt_of_lt hi)
  exact ⟨(lt_ceilDiv_iff hcw).mp (Nat.mod_lt i hnx), (lt_ceilDiv_iff hch).mp (Nat.div_lt_of_lt_mul hi)⟩

/-- The offsets of a pixel in its region are a native position (42_serializer R133). -/
theorem native_of_inRegion (ht : p.TypesOk) {i x y : Nat} (h : p.inRegion i x y) :
    x - p.firstCol i < p.chipWidth ∧ y - p.firstRow i < p.chipHeight := by
  obtain ⟨hcol, hcol', hrow, hrow'⟩ := h
  rw [le_lastCol_iff ht] at hcol'
  rw [le_lastRow_iff ht] at hrow'
  omega

theorem first_inRegion (ht : p.TypesOk) {i : Nat} (hi : i < p.nchips) : p.inRegion i (p.firstCol i) (p.firstRow i) := by
  obtain ⟨hx, hy⟩ := firstCol_lt_and_firstRow_lt ht hi
  have hcol := le_lastCol_iff ht i (p.firstCol i)
  have hrow := le_lastRow_iff ht i (p.firstRow i)
  obtain ⟨-, -, hcw, hch, -⟩ := ht
  exact ⟨le_rfl, hcol.mpr (by omega), le_rfl, hrow.mpr (by omega)⟩

end Params

/-- Settles O35: a pixel of the grid lies in the region of the chip of its tile alone, and every tile starts inside the grid. -/
theorem regionsPartitionGrid : Obligations.RegionsPartitionGrid := by
  intro p hwf
  have ht := Params.typesOk_of_wellFormed hwf
  refine ⟨fun x hx y hy => ?_, fun i hi => ⟨Params.first_inRegion ht hi, ?_, ?_⟩⟩
  · have hin : p.inRegion (p.chipAt x y) x y := (Params.inRegion_iff_eq_chipAt ht _ hx hy).mpr rfl
    obtain ⟨hcx, hcy⟩ := Params.native_of_inRegion ht hin
    exact ⟨p.chipAt x y, Params.chipAt_lt_nchips ht hx hy, hin, hcx, hcy,
      fun j _ hj => (Params.inRegion_iff_eq_chipAt ht j hx hy).mp hj⟩
  · exact ((Params.le_lastCol_iff ht ..).mp le_rfl).2
  · exact ((Params.le_lastRow_iff ht ..).mp le_rfl).2

end Sys2Proof

namespace Sys2Proof.Params

/-! ## Covered positions and PWM slots -/

theorem mem_covered_iff (p : Params) (i cx cy : Nat) :
    (cx, cy) ∈ p.covered i ↔ p.firstCol i + cx ≤ p.lastCol i ∧ p.firstRow i + cy ≤ p.lastRow i := by
  rw [mem_covered]
  omega

/-- A covered position is native to its chip (42_serializer R133). -/
theorem mem_nativePositions_of_mem_covered {p : Params} (ht : p.TypesOk) {i : Nat} {c : Nat × Nat} (hc : c ∈ p.covered i) :
    c ∈ p.nativePositions := by
  obtain ⟨hcol, hrow⟩ := (p.mem_covered_iff i c.1 c.2).mp hc
  rw [le_lastCol_iff ht] at hcol
  rw [le_lastRow_iff ht] at hrow
  exact (p.mem_nativePositions c.1 c.2).mpr (by omega)

theorem exists_pixelAt_of_mem_covered {p : Params} (ht : p.TypesOk) {d : Display} (hd : d.length = p.pixelCount) {i cx cy : Nat}
    (hc : (cx, cy) ∈ p.covered i) : ∃ px, p.pixelAt d i cx cy = some px := by
  obtain ⟨hcol, hrow⟩ := (p.mem_covered_iff i cx cy).mp hc
  have hx := ((le_lastCol_iff ht ..).mp hcol).2
  have hy := ((le_lastRow_iff ht ..).mp hrow).2
  have hlt : (p.firstCol i + cx) * p.height + (p.firstRow i + cy) < d.length := by
    rw [hd, pixelCount, Nat.mul_comm]
    exact Nat.mul_add_lt_mul_of_lt_of_lt hx hy
  exact ⟨_, List.getElem?_eq_getElem hlt⟩

/-- No two slots of native positions are one byte (00_scope R9 item 5). -/
theorem pwmSlot_inj {p : Params} (hwf : p.wellFormed = true) {c c' : Nat × Nat} {k k' : Nat} (hc : c ∈ p.nativePositions)
    (hc' : c' ∈ p.nativePositions) (hk : k < 4) (hk' : k' < 4) (h : p.pwmSlot c.1 c.2 k = p.pwmSlot c'.1 c'.2 k') :
    c = c' ∧ k = k' := by
  obtain ⟨-, -, -, -, hnodup, -⟩ := p.wellFormed_iff.mp hwf
  have hprod : p.pwmSlots = (p.nativePositions ×ˢ [0, 1, 2, 3]).map fun q => p.pwmSlot q.1.1 q.1.2 q.2 := by
    simp only [pwmSlots, SProd.sprod, List.product, List.map_flatMap, List.map_map, Function.comp_def]
  rw [hprod] at hnodup
  exact Prod.ext_iff.mp <| List.inj_on_of_nodup_map hnodup
    (List.mem_product.mpr ⟨hc, (mem_byteIndices_iff k).mpr hk⟩) (List.mem_product.mpr ⟨hc', (mem_byteIndices_iff k').mpr hk'⟩) h

end Sys2Proof.Params

namespace Sys2Proof.Machine

/-! ## Several writes to a scratch buffer -/

/-- The cells written in order. -/
def Memory.writeAll (cells : List Host.Cell) (m : Memory) : Memory := cells.foldl (fun m c => Memory.write m c.1 c.2) m

/-- The cells ORed in, in order. -/
def Memory.orAll (cells : List Host.Cell) (m : Memory) : Memory := cells.foldl (fun m c => Memory.orByte m c.1 c.2) m

theorem Memory.writeAll_cons (c : Host.Cell) (cells : List Host.Cell) (m : Memory) :
    Memory.writeAll (c :: cells) m = Memory.writeAll cells (Memory.write m c.1 c.2) := rfl

theorem Memory.orAll_cons (c : Host.Cell) (cells : List Host.Cell) (m : Memory) :
    Memory.orAll (c :: cells) m = Memory.orAll cells (Memory.orByte m c.1 c.2) := rfl

theorem Memory.writeAll_wf (cells : List Host.Cell) {m : Memory} (h : Memory.wf m) : Memory.wf (Memory.writeAll cells m) := by
  induction cells generalizing m with
  | nil => exact h
  | cons c cells ih => exact ih (Memory.write_wf _ _ h)

theorem Memory.orAll_wf (cells : List Host.Cell) {m : Memory} (h : Memory.wf m) : Memory.wf (Memory.orAll cells m) := by
  induction cells generalizing m with
  | nil => exact h
  | cons c cells ih => exact ih (Memory.orByte_wf _ _ h)

theorem Memory.read_writeAll_of_not_mem {cells : List Host.Cell} {a : Nat} {m : Memory} (hm : Memory.wf m)
    (ha : ∀ v, (a, v) ∉ cells) : Memory.read (Memory.writeAll cells m) a = Memory.read m a := by
  induction cells generalizing m with
  | nil => rfl
  | cons c cells ih =>
    obtain ⟨b, w⟩ := c
    have hab : a ≠ b := fun h => ha w (by simp [h])
    rw [Memory.writeAll_cons, ih (Memory.write_wf _ _ hm) fun v hv => ha v (List.mem_cons_of_mem _ hv),
      Memory.read_write _ _ _ hm, if_neg hab]

/-- A byte that all its cells give the same value holds that value. -/
theorem Memory.read_writeAll_of_mem {cells : List Host.Cell} {a : Nat} {v : Byte} {m : Memory} (hm : Memory.wf m)
    (ha : (a, v) ∈ cells) (huniq : ∀ w, (a, w) ∈ cells → w = v) : Memory.read (Memory.writeAll cells m) a = v := by
  induction cells generalizing m with
  | nil => cases ha
  | cons c cells ih =>
    have hwf := Memory.write_wf c.1 c.2 hm
    rw [Memory.writeAll_cons]
    by_cases hlater : ∃ w, (a, w) ∈ cells
    · obtain ⟨w, hw⟩ := hlater
      obtain rfl := huniq w (List.mem_cons_of_mem _ hw)
      exact ih hwf hw fun w hw => huniq w (List.mem_cons_of_mem _ hw)
    · have hlast := not_exists.mp hlater
      obtain rfl : (a, v) = c := (List.mem_cons.mp ha).resolve_right (hlast v)
      rw [Memory.read_writeAll_of_not_mem hwf hlast, Memory.read_write _ _ _ hm, if_pos rfl]

/-- A bit is set after some ORs exactly when it was set before or one of them sets it. -/
theorem Memory.getLsbD_read_orAll_iff {cells : List Host.Cell} {m : Memory} (hm : Memory.wf m) (a b : Nat) :
    (Memory.read (Memory.orAll cells m) a).getLsbD b = true ↔
      (Memory.read m a).getLsbD b = true ∨ ∃ v : Byte, (a, v) ∈ cells ∧ v.getLsbD b = true := by
  induction cells generalizing m with
  | nil => simp [Memory.orAll]
  | cons c cells ih =>
    obtain ⟨x, w⟩ := c
    rw [Memory.orAll_cons, ih (Memory.orByte_wf _ _ hm), Memory.read_orByte _ _ _ hm]
    by_cases hax : a = x
    · subst hax
      simp [or_and_right, exists_or, or_assoc]
    · simp [hax]

/-! ## A build as the cells that its pixels write -/

/-- The cells of the PWM buffer that a pixel writes (42_serializer R134, R135). -/
def pwmCells (p : Params) (cx cy : Nat) (px : Pixel) : List Host.Cell :=
  [0, 1, 2, 3].map fun k => (p.pwmSlot cx cy k, pwmByte p.pwmScheme px.intensity k)

/-- The cells that a pixel ORs into the on/off buffer (42_serializer R137). -/
def onoffCells (p : Params) (cx cy : Nat) (px : Pixel) : List Host.Cell :=
  if px.gate then
    [(p.onoffAt cx cy, pairMask (p.onoffPairAt cx cy)), (p.onoffAt cx cy + p.onoffRowStride, pairMask (p.onoffPairAt cx cy))]
  else []

theorem pwmPixel_eq_writeAll (p : Params) (cx cy : Nat) (px : Pixel) (m : Memory) :
    pwmPixel p cx cy px m = Memory.writeAll (pwmCells p cx cy px) m := rfl

theorem onoffPixel_eq_orAll (p : Params) (cx cy : Nat) (px : Pixel) (m : Memory) :
    onoffPixel p cx cy px m = Memory.orAll (onoffCells p cx cy px) m := by
  unfold onoffPixel onoffCells
  split <;> rfl

/-- The cells of the pixels at some positions of chip `i`. -/
def cellsAt (cells : Nat → Nat → Pixel → List Host.Cell) (p : Params) (d : Display) (i : Nat) (order : List (Nat × Nat)) :
    List Host.Cell :=
  order.flatMap fun c => (p.pixelAt d i c.1 c.2).elim [] (cells c.1 c.2)

theorem mem_cellsAt_iff {cells : Nat → Nat → Pixel → List Host.Cell} {p : Params} {d : Display} {i : Nat}
    {order : List (Nat × Nat)} {cell : Host.Cell} :
    cell ∈ cellsAt cells p d i order ↔
      ∃ cx cy, (cx, cy) ∈ order ∧ ∃ px, p.pixelAt d i cx cy = some px ∧ cell ∈ cells cx cy px := by
  have helim (o : Option Pixel) (f : Pixel → List Host.Cell) : cell ∈ o.elim [] f ↔ ∃ px, o = some px ∧ cell ∈ f px := by
    cases o <;> simp
  simp only [cellsAt, List.mem_flatMap, Prod.exists, helim]

/-- Pixels that each fold their cells in fold the cells of all of them in. -/
theorem foldl_buildAt {write : Nat → Nat → Pixel → Memory → Memory} {cells : Nat → Nat → Pixel → List Host.Cell}
    {put : Memory → Host.Cell → Memory} (hwrite : ∀ cx cy px m, write cx cy px m = (cells cx cy px).foldl put m) (p : Params)
    (d : Display) (i : Nat) (order : List (Nat × Nat)) (m : Memory) :
    order.foldl (buildAt write p d i) m = (cellsAt cells p d i order).foldl put m := by
  rw [cellsAt, List.foldl_flatMap]
  congr 1
  funext m c
  rw [buildAt]
  cases p.pixelAt d i c.1 c.2 with
  | none => rfl
  | some px => exact hwrite ..

theorem foldl_buildAt_pwmPixel (p : Params) (d : Display) (i : Nat) (order : List (Nat × Nat)) :
    order.foldl (buildAt (pwmPixel p) p d i) [] = Memory.writeAll (cellsAt (pwmCells p) p d i order) [] :=
  foldl_buildAt (pwmPixel_eq_writeAll p) ..

theorem foldl_buildAt_onoffPixel (p : Params) (d : Display) (i : Nat) (order : List (Nat × Nat)) :
    order.foldl (buildAt (onoffPixel p) p d i) [] = Memory.orAll (cellsAt (onoffCells p) p d i order) [] :=
  foldl_buildAt (onoffPixel_eq_orAll p) ..

/-! ## The PWM buffer -/

theorem mem_pwmCells_iff {p : Params} {cx cy a : Nat} {px : Pixel} {v : Byte} :
    (a, v) ∈ pwmCells p cx cy px ↔ ∃ k < 4, p.pwmSlot cx cy k = a ∧ pwmByte p.pwmScheme px.intensity k = v := by
  simp only [pwmCells, List.mem_map, Params.mem_byteIndices_iff, Prod.mk.injEq]

/-- No byte of the PWM buffer gets two values: its slots are distinct (00_scope R9 item 5). -/
theorem cellsAt_pwmCells_unique {p : Params} (hwf : p.wellFormed = true) {d : Display} {i a : Nat} {v w : Byte}
    (hv : (a, v) ∈ cellsAt (pwmCells p) p d i (p.covered i)) (hw : (a, w) ∈ cellsAt (pwmCells p) p d i (p.covered i)) :
    w = v := by
  have ht := Params.typesOk_of_wellFormed hwf
  obtain ⟨cx, cy, hc, px, hpx, hcell⟩ := mem_cellsAt_iff.mp hv
  obtain ⟨cx', cy', hc', px', hpx', hcell'⟩ := mem_cellsAt_iff.mp hw
  obtain ⟨k, hk, rfl, rfl⟩ := mem_pwmCells_iff.mp hcell
  obtain ⟨k', hk', hslot, rfl⟩ := mem_pwmCells_iff.mp hcell'
  obtain ⟨hpos, rfl⟩ := Params.pwmSlot_inj hwf (Params.mem_nativePositions_of_mem_covered ht hc')
    (Params.mem_nativePositions_of_mem_covered ht hc) hk' hk hslot
  obtain ⟨rfl, rfl⟩ := Prod.mk.inj hpos
  rw [Option.some.inj (hpx'.symm.trans hpx)]

theorem read_serializePwm_of_mem {p : Params} (hwf : p.wellFormed = true) {d : Display} {i a : Nat} {v : Byte}
    (h : (a, v) ∈ cellsAt (pwmCells p) p d i (p.covered i)) : Memory.read (serializePwm p d i) a = v := by
  rw [serializePwm, buildBuffer, foldl_buildAt_pwmPixel]
  exact Memory.read_writeAll_of_mem Memory.wf_nil h fun w hw => cellsAt_pwmCells_unique hwf h hw

theorem read_serializePwm_of_not_mem {p : Params} {d : Display} {i a : Nat}
    (h : ∀ v, (a, v) ∉ cellsAt (pwmCells p) p d i (p.covered i)) : Memory.read (serializePwm p d i) a = 0#8 := by
  rw [serializePwm, buildBuffer, foldl_buildAt_pwmPixel]
  exact Memory.read_writeAll_of_not_mem Memory.wf_nil h

theorem pwmByte_fourByte (v : Intensity) (k : Nat) : pwmByte .fourByte v k = (v >>> (8 * k)).setWidth 8 := by
  ext j hj
  simp [pwmByte]

theorem toNat_pwmByte_clampReplicate (v : Intensity) (k : Nat) : (pwmByte .clampReplicate v k).toNat = min v.toNat 255 := by
  rw [pwmByte, BitVec.toNat_ofNat]
  omega

/-- Settles O36: the cell of a slot is its byte's one cell, and a byte that is no slot of a covered position has none. -/
theorem pwmBufferHoldsIntensities : Obligations.PwmBufferHoldsIntensities := by
  intro p d i hwf _ hd
  refine ⟨fun cx cy hcol hrow k hk => ?_, fun a ha => read_serializePwm_of_not_mem fun v hv => ?_⟩
  · have hc : (cx, cy) ∈ p.covered i := (p.mem_covered_iff i cx cy).mpr ⟨hcol, hrow⟩
    obtain ⟨px, hpx⟩ := Params.exists_pixelAt_of_mem_covered (Params.typesOk_of_wellFormed hwf) hd hc
    have hread : Memory.read (serializePwm p d i) (p.pwmSlot cx cy k) = pwmByte p.pwmScheme px.intensity k :=
      read_serializePwm_of_mem hwf
        (mem_cellsAt_iff.mpr ⟨cx, cy, hc, px, hpx, mem_pwmCells_iff.mpr ⟨k, hk, rfl, rfl⟩⟩)
    refine ⟨px, hpx, fun hs => ?_, fun hs => ?_⟩
    · rw [hread, hs, pwmByte_fourByte]
    · rw [hread, hs, toNat_pwmByte_clampReplicate]
  · obtain ⟨cx, cy, hc, px, -, hcell⟩ := mem_cellsAt_iff.mp hv
    obtain ⟨k, hk, rfl, -⟩ := mem_pwmCells_iff.mp hcell
    obtain ⟨hcol, hrow⟩ := (p.mem_covered_iff i cx cy).mp hc
    exact ha cx cy hcol hrow k hk rfl

/-! ## The on/off buffer -/

/-- `0b11 << (2*j)` is the two bits of pair `j` (30_encoding R70). -/
theorem pairMask_getLsbD_iff (j : Nat) {b : Nat} (hb : b < 8) :
    (pairMask j).getLsbD b = true ↔ b = 2 * j ∨ b = 2 * j + 1 := by
  have hpair : ∀ n < 8, ((0b11#8).getLsbD n = true ↔ n < 2) := by decide
  simp only [pairMask, BitVec.getLsbD_shiftLeft, Bool.and_eq_true, decide_eq_true_eq, Bool.not_eq_true', decide_eq_false_iff_not,
    hpair (b - 2 * j) (by omega)]
  omega

theorem mem_onoffCells_iff {p : Params} {cx cy a : Nat} {px : Pixel} {v : Byte} :
    (a, v) ∈ onoffCells p cx cy px ↔ px.gate = true ∧ (a = p.onoffAt cx cy ∨ a = p.onoffAt cx cy + p.onoffRowStride) ∧
      v = pairMask (p.onoffPairAt cx cy) := by
  unfold onoffCells
  split <;> simp [*, or_and_right]

/-- Settles O37: a bit is set by the cells ORed in, and those are of gated pixels. -/
theorem onoffBufferMarksGatedPixels : Obligations.OnoffBufferMarksGatedPixels := by
  intro p d i a b _ hb
  rw [serializeOnoff, buildBuffer, foldl_buildAt_onoffPixel, Memory.getLsbD_read_orAll_iff Memory.wf_nil]
  have hnil : ¬ (Memory.read [] a).getLsbD b = true := by simp [Memory.read, Memory.unlisted]
  rw [or_iff_right hnil]
  constructor
  · rintro ⟨v, hv, hbit⟩
    obtain ⟨cx, cy, hc, px, hpx, hcell⟩ := mem_cellsAt_iff.mp hv
    obtain ⟨hgate, ha, rfl⟩ := mem_onoffCells_iff.mp hcell
    obtain ⟨hcol, hrow⟩ := (p.mem_covered_iff i cx cy).mp hc
    exact ⟨cx, cy, px, hcol, hrow, hpx, hgate, ha, (pairMask_getLsbD_iff _ hb).mp hbit⟩
  · rintro ⟨cx, cy, px, hcol, hrow, hpx, hgate, ha, hbit⟩
    exact ⟨_, mem_cellsAt_iff.mpr
      ⟨cx, cy, (p.mem_covered_iff i cx cy).mpr ⟨hcol, hrow⟩, px, hpx, mem_onoffCells_iff.mpr ⟨hgate, ha, rfl⟩⟩,
      (pairMask_getLsbD_iff _ hb).mpr hbit⟩

/-! ## The order of the pixels -/

/-- Cells that give no byte two values leave the same contents in every order. -/
theorem Memory.writeAll_eq_of_mem_iff {cells cells' : List Host.Cell} {m : Memory} (hm : Memory.wf m)
    (hmem : ∀ c, c ∈ cells ↔ c ∈ cells') (huniq : ∀ a v w, (a, v) ∈ cells → (a, w) ∈ cells → w = v) :
    Memory.writeAll cells m = Memory.writeAll cells' m := by
  refine Memory.ext_read (Memory.writeAll_wf _ hm) (Memory.writeAll_wf _ hm) fun a => ?_
  by_cases ha : ∃ v, (a, v) ∈ cells
  · obtain ⟨v, hv⟩ := ha
    rw [Memory.read_writeAll_of_mem hm hv fun w => huniq a v w hv,
      Memory.read_writeAll_of_mem hm ((hmem _).mp hv) fun w hw => huniq a v w hv ((hmem _).mpr hw)]
  · rw [Memory.read_writeAll_of_not_mem hm (not_exists.mp ha),
      Memory.read_writeAll_of_not_mem hm fun v hv => ha ⟨v, (hmem _).mpr hv⟩]

theorem Memory.orAll_eq_of_mem_iff {cells cells' : List Host.Cell} {m : Memory} (hm : Memory.wf m)
    (hmem : ∀ c, c ∈ cells ↔ c ∈ cells') : Memory.orAll cells m = Memory.orAll cells' m := by
  refine Memory.ext_read (Memory.orAll_wf _ hm) (Memory.orAll_wf _ hm) fun a => BitVec.eq_of_getLsbD_eq fun b _ => ?_
  rw [Bool.eq_iff_iff, Memory.getLsbD_read_orAll_iff hm, Memory.getLsbD_read_orAll_iff hm]
  simp only [hmem]

/-- Settles O38: the buffers are read off the set of the cells, which no order of the positions changes. -/
theorem pixelOrderDoesNotMatter : Obligations.PixelOrderDoesNotMatter := by
  intro p d i order hwf _ hperm
  have hmem (cells : Nat → Nat → Pixel → List Host.Cell) (c : Host.Cell) :
      c ∈ cellsAt cells p d i (p.covered i) ↔ c ∈ cellsAt cells p d i order := by
    simp only [mem_cellsAt_iff, hperm.mem_iff]
  rw [serializePwm, serializeOnoff, buildBuffer, buildBuffer]
  simp only [foldl_buildAt_pwmPixel, foldl_buildAt_onoffPixel]
  exact ⟨(Memory.writeAll_eq_of_mem_iff Memory.wf_nil (hmem _) fun _ _ _ => cellsAt_pwmCells_unique hwf).symm,
    (Memory.orAll_eq_of_mem_iff Memory.wf_nil (hmem _)).symm⟩

/-! ## The diagnostic flags -/

/-- A pixel with its diagnostic flags cleared: what the serializer reads of it (42_serializer R130). -/
def withoutDiagnostics (px : Pixel) : Pixel := { px with shorted := false, isOpen := false }

theorem map_withoutDiagnostics_congr {d d' : Display}
    (h : d.map (fun px => (px.intensity, px.gate)) = d'.map fun px => (px.intensity, px.gate)) :
    d.map withoutDiagnostics = d'.map withoutDiagnostics := by
  have hclear : withoutDiagnostics = (fun q => Pixel.mk q.1 q.2 false false) ∘ fun px => (px.intensity, px.gate) := rfl
  rw [hclear, ← List.map_map, h, List.map_map]

theorem buildBuffer_withoutDiagnostics {write : Nat → Nat → Pixel → Memory → Memory}
    (hwrite : ∀ cx cy px, write cx cy (withoutDiagnostics px) = write cx cy px) (p : Params) (d : Display) (i : Nat) :
    buildBuffer write p (d.map withoutDiagnostics) i = buildBuffer write p d i := by
  unfold buildBuffer
  congr 1
  funext m c
  simp only [buildAt, Params.pixelAt, List.getElem?_map]
  cases d[(p.firstCol i + c.1) * p.height + (p.firstRow i + c.2)]? with
  | none => rfl
  | some px => exact congrFun (hwrite ..) m

theorem serializePwm_withoutDiagnostics (p : Params) (d : Display) (i : Nat) :
    serializePwm p (d.map withoutDiagnostics) i = serializePwm p d i :=
  buildBuffer_withoutDiagnostics (fun _ _ _ => rfl) p d i

theorem serializeOnoff_withoutDiagnostics (p : Params) (d : Display) (i : Nat) :
    serializeOnoff p (d.map withoutDiagnostics) i = serializeOnoff p d i :=
  buildBuffer_withoutDiagnostics (fun _ _ _ => rfl) p d i

/-- RENDER reads its Display through the two buffers of each chip. -/
theorem exec_render_withoutDiagnostics (d : Display) (s : State) :
    exec (.render (d.map withoutDiagnostics)) s = exec (.render d) s := by
  have hload : loadBuffers (d.map withoutDiagnostics) = loadBuffers d := by
    funext i u
    rw [loadBuffers, loadBuffers, serializePwm_withoutDiagnostics, serializeOnoff_withoutDiagnostics]
  have hchip : renderChip (d.map withoutDiagnostics) = renderChip d := by
    unfold renderChip
    rw [hload]
  rw [exec_render, exec_render, hchip]

/-- Settles O41: RENDER and the buffers are the same after the flags are cleared, and then the two Displays are equal. -/
theorem diagnosticFlagsAreIgnored : Obligations.DiagnosticFlagsAreIgnored := by
  intro d d' h
  have hd := map_withoutDiagnostics_congr h
  refine ⟨fun s => ?_, fun p i => ⟨?_, ?_⟩⟩
  · rw [← exec_render_withoutDiagnostics d, hd, exec_render_withoutDiagnostics]
  · rw [← serializePwm_withoutDiagnostics p d, hd, serializePwm_withoutDiagnostics]
  · rw [← serializeOnoff_withoutDiagnostics p d, hd, serializeOnoff_withoutDiagnostics]

/-! ## The plan of RENDER -/

/-- What a chip gets depends on its own entry alone. -/
theorem planRender_frames {p : Params} (hwf : p.wellFormed = true) (d : Display) (i : Nat) {cache : List CacheEntry}
    (hlen : cache.length = p.busChipCount) :
    (planRender p d i cache).1 = renderFrames p d (cache.getD (p.key (p.addr8 i)) .unknown) i := by
  obtain ⟨-, ⟨-, -, -, -, hpwm, honoff⟩, -⟩ := p.wellFormed_iff.mp hwf
  have hk : p.key (p.addr8 i) < cache.length := hlen ▸ p.key_lt hwf _
  have hentry (e : CacheEntry) : (cache.set (p.key (p.addr8 i)) e).getD (p.key (p.addr8 i)) .unknown = e := by simp [hk]
  simp only [planRender, Plan.andThen, planSeq, hpwm, honoff, Bool.false_eq_true, if_false, planBurst, planSelect_frames,
    planSelect_cache, hentry, renderFrames, List.append_assoc]

/-- Chip after chip, each from the entry that the whole plan starts from: no two chips share a key. -/
theorem planEach_planRender_frames {p : Params} (hwf : p.wellFormed = true) (d : Display) {indices : List Nat}
    (hnodup : (indices.map fun i => p.key (p.addr8 i)).Nodup) {cache : List CacheEntry}
    (hlen : cache.length = p.busChipCount) :
    (planEach (planRender p d) indices cache).1 =
      indices.flatMap fun i => renderFrames p d (cache.getD (p.key (p.addr8 i)) .unknown) i := by
  induction indices generalizing cache with
  | nil => rfl
  | cons i rest ih =>
    obtain ⟨hfresh, hnodup⟩ := List.nodup_cons.mp hnodup
    have hkeep : ∀ j ∈ rest, (planRender p d i cache).2.getD (p.key (p.addr8 j)) .unknown =
        cache.getD (p.key (p.addr8 j)) .unknown := by
      intro j hj
      have hij : p.key (p.addr8 i) ≠ p.key (p.addr8 j) := fun h => hfresh (List.mem_map.mpr ⟨j, hj, h.symm⟩)
      rw [planRender_cache hwf, List.getD_eq_getElem?_getD, List.getElem?_set_ne hij, ← List.getD_eq_getElem?_getD]
    rw [planEach, Plan.andThen, List.flatMap_cons, planRender_frames hwf d i hlen,
      ih hnodup (by rw [planRender_cache hwf, List.length_set, hlen])]
    exact congrArg _ (List.flatMap_congr fun j hj => by rw [hkeep j hj])

/-- The plan of RENDER, from any cache (42_serializer R141). -/
theorem planEach_planRender {p : Params} (hwf : p.wellFormed = true) (d : Display) {cache : List CacheEntry}
    (hlen : cache.length = p.busChipCount) :
    planEach (planRender p d) (List.range p.nchips) cache =
      ((List.range p.nchips).flatMap fun i => renderFrames p d (cache.getD (p.key (p.addr8 i)) .unknown) i,
        cacheSelecting p (regPage p.onoffRegStart) cache) := by
  obtain ⟨-, -, ⟨-, -, -, -, -, hnodup⟩, -⟩ := p.wellFormed_iff.mp hwf
  exact Prod.ext (planEach_planRender_frames hwf d hnodup hlen) (planEach_cache_eq_mapIdx (planRender_cache hwf d) ..)

/-- RENDER's effect under well-formed parameters: its plan, with both buffers cleared. -/
theorem effectOf_render {s : State} (hwf : s.cfg.wellFormed = true) (d : Display) :
    effectOf (.render d) s =
      { Effect.ofPlan (planEach (planRender s.cfg d) (List.range s.cfg.nchips) s.cache) s with
        pwmBuf := []
        onoffBuf := [] } := by
  simp only [effectOf, (Params.nchips_pos hwf).ne', burstsOk_of_wellFormed hwf, if_false, Bool.or_true, Bool.and_true]
  rfl

theorem exec_render_of_wellFormed {s : State} (hwf : s.cfg.wellFormed = true) (hlen : s.cache.length = s.cfg.busChipCount)
    (d : Display) :
    exec (.render d) s = .next { ranFrames
        ((List.range s.cfg.nchips).flatMap fun i => renderFrames s.cfg d (s.cacheAt (s.cfg.key (s.cfg.addr8 i))) i) s with
      pwmBuf := []
      onoffBuf := []
      cache := cacheSelecting s.cfg (regPage s.cfg.onoffRegStart) s.cache } := by
  refine (exec_next_iff ..).mpr (.inr ⟨rfl, Params.indicesFit_of_wellFormed hwf, ?_⟩)
  have hplan := planEach_planRender hwf d hlen
  have hframes := planEach_frames_ne_nil (planRender_frames_ne_nil hwf d) hwf s.cache
  have hfinish := Effect.finish_ofPlan_of_frames hframes s
  rw [hplan] at hfinish
  rw [effectOf_render hwf, hplan]
  exact congrArg clearBuffers hfinish

/-! ## Reserved pixel flags -/

/-- One record with a reserved flag bit set spoils the Display (30_encoding R84 (d)). -/
theorem decodePixels_of_reserved {count n : Nat} {bytes : List Byte} {f : Byte} (hn : n < count)
    (hf : bytes[5 * n + 4]? = some f) (hreserved : f.extractLsb' 3 5 ≠ 0#5) : decodePixels count bytes = none := by
  induction count, bytes using decodePixels.induct generalizing n with
  | case1 bytes => exact absurd hn (Nat.not_lt_zero n)
  | case2 count b0 b1 b2 b3 g rest px pxs hpxs hpx ih =>
    cases n with
    | zero =>
      obtain rfl : g = f := Option.some.inj hf
      rw [decodePixel, if_neg hreserved] at hpx
      cases hpx
    | succ n =>
      rw [ih (Nat.lt_of_succ_lt_succ hn) hf] at hpxs
      cases hpxs
  | case3 count b0 b1 b2 b3 g rest hnone ih => simp [decodePixels]
  | case4 count bytes hshort => simp [decodePixels]

/-- Settles O39: the plan of every chip from its own entry, and the one refusal of a Display that is not cut short. -/
theorem renderWritesEveryChip : Obligations.RenderWritesEveryChip := by
  refine ⟨fun s d hwf hlen => exec_render_of_wellFormed hwf hlen d, fun p rest n f hlen hn hf hreserved => ?_⟩
  show decodeRender p.pixelCount rest = _
  rw [decodeRender, if_neg (Nat.not_lt.mpr hlen), decodePixels_of_reserved hn hf hreserved]

/-! ## The transactions of RENDER -/

theorem Memory.length_bytes (m : Memory) (len : Nat) : (Memory.bytes m len).length = len := by simp [Memory.bytes]

theorem selectFramesFrom_map_length (entry : CacheEntry) (p : Params) (addr page : Byte) :
    (selectFramesFrom entry p addr page).map List.length = if entry = .page page then [] else [3, 3] := by
  unfold selectFramesFrom
  split <;> rfl

/-- The lengths of a chip's frames: two bursts, and the two frames of a page select before each unless its page is there. -/
theorem renderFrames_map_length (p : Params) (d : Display) (entry : CacheEntry) (i : Nat) :
    (renderFrames p d entry i).map List.length =
      (if entry = .page (regPage p.pwmRegStart) then [] else [3, 3]) ++ [2 + p.pwmLen] ++
      (if regPage p.pwmRegStart = regPage p.onoffRegStart then [] else [3, 3]) ++ [2 + p.onoffLen] := by
  simp only [renderFrames, List.map_append, selectFramesFrom_map_length, List.map_cons, List.map_nil, List.length_cons,
    Memory.length_bytes, CacheEntry.page.injEq, Nat.add_comm 2]

theorem renderFrames_length (p : Params) (d : Display) (entry : CacheEntry) (i : Nat) :
    (renderFrames p d entry i).length =
      (if entry = .page (regPage p.pwmRegStart) then 0 else 2) +
      (if regPage p.pwmRegStart = regPage p.onoffRegStart then 0 else 2) + 2 := by
  rw [← List.length_map (f := List.length), renderFrames_map_length]
  split <;> split <;> rfl

theorem slotCount_renderFrames (p : Params) (d : Display) (entry : CacheEntry) (i : Nat) :
    slotCount (renderFrames p d entry i) =
      (if entry = .page (regPage p.pwmRegStart) then 0 else 6) + (2 + p.pwmLen) +
      (if regPage p.pwmRegStart = regPage p.onoffRegStart then 0 else 6) + (2 + p.onoffLen) := by
  rw [slotCount, renderFrames_map_length]
  simp only [List.sum_append, List.sum_singleton, apply_ite List.sum]
  rfl

/-- The events of a chip's frames (30_encoding R74). -/
theorem renderFrames_events (p : Params) (d : Display) (entry : CacheEntry) (i : Nat) :
    7 * (renderFrames p d entry i).length + 28 * slotCount (renderFrames p d entry i) =
      (if entry = .page (regPage p.pwmRegStart) then 0 else 2 * 91) + (63 + 28 * p.pwmLen) +
      (if regPage p.pwmRegStart = regPage p.onoffRegStart then 0 else 2 * 91) + (63 + 28 * p.onoffLen) := by
  rw [renderFrames_length, slotCount_renderFrames]
  split <;> split <;> omega

theorem framesEvents_flatMap_length (frames : Nat → List Frame) (indices : List Nat) (d : Nat → Bool) :
    (framesEvents (indices.flatMap frames) d).length =
      (indices.map fun i => 7 * (frames i).length + 28 * slotCount (frames i)).sum := by
  induction indices generalizing d with
  | nil => rfl
  | cons i rest ih =>
    rw [List.flatMap_cons, framesEvents_append, List.length_append, ih, (framesEvents_counts ..).1, List.map_cons, List.sum_cons]

/-- Settles O40: the frames of the next state's trace, counted chip by chip by their lengths. -/
theorem renderTransactionCount : Obligations.RenderTransactionCount := by
  rintro s t d hwf hlen h pp po entry frames rfl rfl hentry hframes
  rw [exec_render_of_wellFormed hwf hlen] at h
  obtain rfl := Host.Outcome.next.inj h
  obtain rfl : frames = fun i => renderFrames s.cfg d (entry i) i := funext hframes
  obtain rfl : entry = fun i => s.cacheAt (s.cfg.key (s.cfg.addr8 i)) := funext hentry
  refine ⟨rfl, ?_, fun i _ => ?_⟩
  · show (s.trace ++ framesEvents _ s.drawAt).length = _
    rw [List.length_append, framesEvents_flatMap_length]
    simp only [renderFrames_events]
  · have hcount := renderFrames_length s.cfg d (s.cacheAt (s.cfg.key (s.cfg.addr8 i))) i
    refine ⟨fun hp he => ?_, fun hp he => ?_, fun hp he => ?_, fun hp he => ?_, renderFrames_map_length ..⟩
    · rw [hcount, if_neg he, if_neg hp]
    · rw [hcount, if_pos he, if_neg hp]
    · rw [hcount, if_neg he, if_pos hp]
    · rw [hcount, if_pos he, if_pos hp]

end Sys2Proof.Machine
end

section
/-! PROOFS. Exceptions (60_exceptions R151 to R159): refusals and rejections, ill-formed parameter sets, acknowledgements, and the
fault mark. -/

namespace Sys2Proof.Machine

/-! ## Ill-formed parameter sets (R158) -/

theorem step_of_illFormed {s : State} (h : s.cfg.wellFormed = false) : step s = .refused .badParameters := by
  rw [step, h]
  rfl

/-- Under well-formed parameters a step answers the end of the stream or a next state. -/
theorem step_eq_badParameters_iff (s : State) : step s = .refused .badParameters ↔ s.cfg.wellFormed = false := by
  refine ⟨fun hstep => ?_, step_of_illFormed⟩
  cases hwf : s.cfg.wellFormed with
  | false => rfl
  | true =>
    by_cases hs : s.stream = []
    · rw [step_of_stream_nil hwf hs] at hstep
      cases hstep
    · obtain ⟨t, ht, -⟩ := step_progress hwf hs
      rw [ht] at hstep
      cases hstep

/-- Settles O6: a step under ill-formed parameters is refused, so a run stays where it is. -/
theorem illFormedParametersHaveNoRun : Obligations.IllFormedParametersHaveNoRun :=
  fun s => ⟨step_eq_badParameters_iff s, fun hwf n => runSteps_of_refused n (step_of_illFormed hwf)⟩

/-! ## Rejected bursts (R152) -/

theorem exec_writeSeq_global {s : State} {addr : Byte} {reg : RegId} (data : List Byte)
    (ha : ∃ i < s.cfg.nchips, s.cfg.addr8 i = addr) (hg : regPage reg = s.cfg.globalMarker) :
    exec (.writeSeq addr reg data) s =
      .next { s with results := s.results ++ [.bool false], cmdIndex := s.cmdIndex + 1 } :=
  (exec_next_iff ..).mpr (.inr ⟨addressCheck_of_configured ha, rfl, finish_writeSeq_global addr data hg⟩)

/-- Without an event no sample can make the answer false, so the command is a rejected burst. -/
theorem exec_rejects_only_global_burst {i : Instr} {s t : State} (hwf : s.cfg.wellFormed = true) (h : exec i s = .next t)
    (hresult : t.results = s.results ++ [.bool false]) (htrace : t.trace = s.trace) :
    ∃ addr reg data, i = .writeSeq addr reg data ∧ regPage reg = s.cfg.globalMarker := by
  have hnot := mt (exec_bool_result hwf h hresult).mpr Bool.false_ne_true
  rw [htrace, List.drop_length] at hnot
  by_contra hnone
  refine hnot ⟨List.not_mem_nil, fun addr reg data hi => ?_⟩
  rw [← Bool.not_eq_true, Params.isGlobal_iff]
  exact fun hg => hnone ⟨addr, reg, data, hi, hg⟩

/-- Settles O28: the effect of a burst to a global register, and what a false answer says of the samples. -/
theorem globalBurstIsTheOnlyRejection : Obligations.GlobalBurstIsTheOnlyRejection :=
  ⟨fun _ _ _ data ha hg => exec_writeSeq_global data ha hg, fun _ _ _ hwf h => exec_rejects_only_global_burst hwf h⟩

/-! ## Acknowledgements (R151) -/

theorem drivesOf_drop (n : Nat) (es : List Event) : drivesOf (es.drop n) = (drivesOf es).drop n := List.map_drop

theorem exec_results_length {i : Instr} {s t : State} (h : exec i s = .next t) :
    t.results.length = s.results.length + 1 := by
  obtain ⟨r, hr, -⟩ := exec_ignores_results h
  rw [hr, List.length_append, List.length_singleton]

/-- Settles O29: under other draws the next state differs in its samples, its results and its draws alone. -/
theorem acknowledgementsNeverChangeTraffic : Obligations.AcknowledgementsNeverChangeTraffic := by
  intro i s t ds n h
  obtain ⟨t', h', heq, hdrives⟩ := exec_other_draws ds n h
  have hfield {α : Type} (f : State → α) := congrArg f heq
  refine ⟨t', h', by rw [drivesOf_drop, hdrives, drivesOf_drop], hfield State.cache, hfield State.sclOut,
    hfield State.sdaOut, hfield State.sdnOut, hfield State.pwmBuf, hfield State.onoffBuf, hfield State.refusedMark,
    hfield State.cmdIndex, ?_⟩
  rw [exec_results_length h', exec_results_length h]

/-! ## Refused encodings (R156, R157) -/

/-- Settles O43: the first refusal is kept, whichever it is. -/
theorem refusalChangesOnlyBookkeeping : Obligations.RefusalChangesOnlyBookkeeping := refuse_eq_refusedAs

/-- Settles O5: the step of a rejected decoding is a refusal on the advanced stream. -/
theorem stepCompletesRefusedEncodings : Obligations.StepCompletesRefusedEncodings := by
  intro s r rest hwf hd
  rw [step_of_rejected hwf hd, refuse_eq_refusedAs]
  rfl

/-! ## Faults (R155, R159) -/

theorem raiseFault_of_no_fault {s : State} (r : FaultReason) (h : s.faultMark = none) :
    raiseFault r s = { s with faultMark := some r, results := s.results ++ [.none], cmdIndex := s.cmdIndex + 1 } := by
  rw [raiseFault, h]
  rfl

theorem raiseFault_keeps_fault {q : FaultReason} {s : State} (r : FaultReason) (h : s.faultMark = some q) :
    (raiseFault r s).faultMark = some q := by
  rw [raiseFault_faultMark, h]
  rfl

theorem raiseFault_isSome (r : FaultReason) (s : State) : (raiseFault r s).faultMark.isSome = true := by
  rw [raiseFault_faultMark, Option.isSome_or, Option.isSome_some, Bool.or_true]

section
variable {s : State} (otherMasterSemantics : State → Host.Outcome State Fault Refusal)

theorem otherAgentStep_of_inCritical (h : s.inCritical = true) :
    otherAgentStep otherMasterSemantics s = .next (raiseFault .busContention s) := if_pos h

theorem otherAgentStep_of_not_inCritical (h : s.inCritical = false) :
    otherAgentStep otherMasterSemantics s = otherMasterSemantics s := if_neg (Bool.eq_false_iff.mp h)

end

/-- Settles O44: what raising a fault does, what a step keeps, and the two branches of the other agent's step. -/
theorem onlyAnotherAgentRaisesFault : Obligations.OnlyAnotherAgentRaisesFault :=
  ⟨fun r _ => raiseFault_of_no_fault r, fun r _ _ => raiseFault_keeps_fault r, fun _ _ h => (step_keeps_marks h).2,
    fun m s => ⟨fun hc => ⟨otherAgentStep_of_inCritical m hc, raiseFault_isSome .busContention s⟩,
      otherAgentStep_of_not_inCritical m⟩⟩

end Sys2Proof.Machine
end
